-- ==== Sys2Proof/Word.lean ====
section
/-! DEFINITION. The word types of the engine: the 8-bit element, the 32-bit register or weight, the 64-bit register,
and the pattern of any width that a host transaction carries (00_scope R11, 20_memory R59). -/

namespace Sys2Proof

/-- An element of WMEM, XMEM or YMEM (10_state R37). -/
abbrev Byte := BitVec 8

/-- A command word, a 32-bit register or an element of QMEM (10_state R26, R37). -/
abbrev Word := BitVec 32

/-- A 64-bit register: EPS, OPA, RES (10_state R26). -/
abbrev DWord := BitVec 64

/-- The datum of a transaction: a pattern of bits together with its width. The host may offer any width; the port
accepts the width of the target only (20_memory R55, R57, R64). -/
structure Pattern where
  /-- The number of bits moved. -/
  width : Nat
  /-- The bits themselves. -/
  bits : BitVec width
deriving DecidableEq, Repr

/-- The bits of a pattern, if it has exactly the width `w`. -/
def Pattern.asWidth (w : Nat) (p : Pattern) : Option (BitVec w) :=
  if p.width = w then some (p.bits.setWidth w) else none

end Sys2Proof
end

