-- ==== Sys2Proof/Syntax.lean ====
section
/-! DEFINITION. What the host can say to the engine: the seven commands (30_encoding R77), the register numbers
(10_state R26), the space ids (20_memory R59), and the four transactions (20_memory R55 to R58). -/

namespace Sys2Proof

/-- The commands, one per row of the opcode table (30_encoding R77). A command carries no operand (R80). -/
inductive Instr where
  /-- NOP (R78). -/
  | nop
  /-- BL.BUILD (40_ternary_matmul R98). -/
  | blBuild
  /-- BL.FWD (40_ternary_matmul R99). -/
  | blFwd
  /-- RN.BUILD (41_rms_norm R114). -/
  | rnBuild
  /-- RN.FWD (41_rms_norm R115). -/
  | rnFwd
  /-- ISQRT (42_integer_sqrt R140). -/
  | isqrt
  /-- CLAMP8 (40_ternary_matmul R100). -/
  | clamp8
deriving DecidableEq, Repr

/-- The eleven registers (10_state R26). -/
inductive Reg where
  | cmd | status | wRows | wCols | shift | nDim | eps | xRows | xCols | opa | res
deriving DecidableEq, Repr

/-- The number of a register (10_state R26). -/
def Reg.number : Reg → Nat
  | .cmd => 0x00
  | .status => 0x01
  | .wRows => 0x02
  | .wCols => 0x03
  | .shift => 0x04
  | .nDim => 0x05
  | .eps => 0x06
  | .xRows => 0x07
  | .xCols => 0x08
  | .opa => 0x09
  | .res => 0x0A

/-- The width of a register in bits (10_state R26). -/
def Reg.width : Reg → Nat
  | .eps => 64
  | .opa => 64
  | .res => 64
  | .cmd => 32
  | .status => 32
  | .wRows => 32
  | .wCols => 32
  | .shift => 32
  | .nDim => 32
  | .xRows => 32
  | .xCols => 32

/-- The register that a number names; numbers 0x0B and above name none (10_state R26). -/
def Reg.ofNumber : Nat → Option Reg
  | 0x00 => some .cmd
  | 0x01 => some .status
  | 0x02 => some .wRows
  | 0x03 => some .wCols
  | 0x04 => some .shift
  | 0x05 => some .nDim
  | 0x06 => some .eps
  | 0x07 => some .xRows
  | 0x08 => some .xCols
  | 0x09 => some .opa
  | 0x0A => some .res
  | _ => none

/-- The four element memories (10_state R37). -/
inductive Space where
  | wmem | xmem | ymem | qmem
deriving DecidableEq, Repr

/-- The space id (20_memory R59). -/
def Space.id : Space → Nat
  | .wmem => 0
  | .xmem => 1
  | .ymem => 2
  | .qmem => 3

/-- The element width of a space (20_memory R59). -/
def Space.width : Space → Nat
  | .wmem => 8
  | .xmem => 8
  | .ymem => 8
  | .qmem => 32

/-- The space that an id names; ids above 3 name none (20_memory R59, R64). -/
def Space.ofId : Nat → Option Space
  | 0 => some .wmem
  | 1 => some .xmem
  | 2 => some .ymem
  | 3 => some .qmem
  | _ => none

/-- The four transactions of the host port, with the raw numbers the host names (20_memory R55 to R58). -/
inductive Transaction where
  /-- `RegWrite(n, v)` (R55). -/
  | regWrite (number : Nat) (value : Pattern)
  /-- `RegRead(n)` (R56). -/
  | regRead (number : Nat)
  /-- `MemWrite(SPACE[i], n, p)`, n the width of the pattern (R57). -/
  | memWrite (space index : Nat) (value : Pattern)
  /-- `MemRead(SPACE[i], n)` (R58). -/
  | memRead (space index width : Nat)
deriving DecidableEq, Repr

/-- What can reach the engine from outside, one at a time: a transaction (20_memory R66) or the reset event, which falls
between transactions (70_reset_and_hazards R168, R170). -/
inductive Event where
  | transaction (t : Transaction)
  | reset
deriving DecidableEq, Repr

end Sys2Proof
end

