-- ==== Sys2Proof/Decode.lean ====
section
/-! DEFINITION. The decoder of the CMD format (30_encoding R76, R83) and, after it, the encoder (R77). -/

namespace Sys2Proof

/-- The OPC field, bits 7:0 of a command word (30_encoding R76). -/
def opcField (w : Word) : Byte := w.extractLsb' 0 8

/-- The ZERO field, bits 31:8 of a command word (30_encoding R76). -/
def zeroField (w : Word) : BitVec 24 := w.extractLsb' 8 24

/-- Why a word names no command (30_encoding R79). -/
inductive DecodeError where
  /-- The ZERO field is not 0. -/
  | zeroFieldNotZero
  /-- The OPC field is 0x07 to 0xFF. -/
  | unassignedOpcode
deriving DecidableEq, Repr

/-- The decoder, total on all 2^32 words (30_encoding R83). -/
def decode (w : Word) : Except DecodeError Instr :=
  if zeroField w ≠ 0 then .error .zeroFieldNotZero
  else
    let opc := (opcField w).toNat
    if opc = 0x00 then .ok .nop
    else if opc = 0x01 then .ok .blBuild
    else if opc = 0x02 then .ok .blFwd
    else if opc = 0x03 then .ok .rnBuild
    else if opc = 0x04 then .ok .rnFwd
    else if opc = 0x05 then .ok .isqrt
    else if opc = 0x06 then .ok .clamp8
    else .error .unassignedOpcode

/-- The OPC value of a command (30_encoding R77). -/
def Instr.opc : Instr → Byte
  | .nop => 0x00
  | .blBuild => 0x01
  | .blFwd => 0x02
  | .rnBuild => 0x03
  | .rnFwd => 0x04
  | .isqrt => 0x05
  | .clamp8 => 0x06

/-- The word of a command: its OPC value zero-extended (30_encoding R77). -/
def encode (i : Instr) : Word := (0 : BitVec 24) ++ i.opc

/-- The command in an instruction of `nbits` bits whose bits are `w`, bit 0 the least significant. A command word moves
whole (20_memory R61), so there is no byte order to lay it out in (log 13). -/
def decodeTableWord (nbits w : Nat) : Option Instr :=
  match decode (BitVec.ofNat 32 (w % 2 ^ nbits)) with
  | .ok i => some i
  | .error _ => none

end Sys2Proof
end

