-- ==== Sys2Proof/Config.lean ====
section
/-! DEFINITION. The constants of the numeric core (00_scope R7), the dimension limits (R9), the open memory sizes (R9)
and the values that the spec leaves without a definition (93_implementation_defined U1, U3, U4), which are opaque:
nothing can be proved about which value they are. -/

namespace Sys2Proof.Config

/-- `ELEM_MIN`, the least int8 value (R7). -/
@[simp] def elemMin : Int := -128
/-- `ELEM_MAX`, the greatest int8 value (R7). -/
@[simp] def elemMax : Int := 127
/-- `Q24_SHIFT` (R7). -/
@[simp] def q24Shift : Nat := 24
/-- `EPS_SHIFT` (R7). -/
@[simp] def epsShift : Nat := 8
/-- `WEIGHT_SHIFT` (R7). -/
@[simp] def weightShift : Nat := 12
/-- `OUTPUT_SCALE`, the output that represents 1.0 (R7). -/
@[simp] def outputScale : Int := 64
/-- `OUT_SHIFT` (R7). -/
@[simp] def outShift : Nat := 16
/-- `ONE_Q16`, the Q16.16 weight that represents 1.0 (R7). -/
@[simp] def oneQ16 : Int := 65536
/-- `ACC_W`, the width of the TMM accumulator (R8). -/
@[simp] def accWidth : Nat := 32
/-- `WIDE_W`, the width of every RMSN intermediate (R8). -/
@[simp] def wideWidth : Nat := 64
/-- `MAX_C`, the largest column count of a weight grid: 2^24 - 1 (R9). -/
@[simp] def maxC : Nat := 16777215
/-- `MAX_D`, the largest feature count of an RMSN layer: 2^25 - 1 (R9). -/
@[simp] def maxD : Nat := 33554431

/-- The four open capacities, in elements (R9, 93_implementation_defined part 2). -/
structure Sizes where
  /-- `WMEM_SIZE`. -/
  wmem : Nat
  /-- `XMEM_SIZE`. -/
  xmem : Nat
  /-- `YMEM_SIZE`. -/
  ymem : Nat
  /-- `QMEM_SIZE`. -/
  qmem : Nat
deriving DecidableEq, Repr

/-- One less than `WMEM_SIZE` of the machine that leaves reset. DESIGN CHOICE (log 3): the spec leaves the size open. -/
opaque wmemSizePred : Nat
/-- One less than `XMEM_SIZE` of the machine that leaves reset. DESIGN CHOICE (log 3). -/
opaque xmemSizePred : Nat
/-- One less than `YMEM_SIZE` of the machine that leaves reset. DESIGN CHOICE (log 3). -/
opaque ymemSizePred : Nat
/-- One less than `QMEM_SIZE` of the machine that leaves reset. DESIGN CHOICE (log 3). -/
opaque qmemSizePred : Nat

/-- The capacities of the machine that leaves reset: open, each at least 1 (R9). -/
def sizes : Sizes :=
  { wmem := wmemSizePred + 1, xmem := xmemSizePred + 1, ymem := ymemSizePred + 1, qmem := qmemSizePred + 1 }

/-- The pattern of a never-written 8-bit element: a free value of the epoch (the number of resets so far), the space id
and the index, fixed until the element is written. DESIGN CHOICE (log 4): U1 of 93_implementation_defined offers
"any value" where a model prefers totality. -/
opaque unwritten8 (epoch space index : Nat) : Byte

/-- The pattern of a never-written 32-bit element of QMEM. DESIGN CHOICE (log 4), as `unwritten8`. -/
opaque unwritten32 (epoch index : Nat) : Word

/-- The pattern RN.FWD leaves in a YMEM element of a row whose radicand is negative: a free value of the draw, EPS, the
row's activations and the YMEM index. DESIGN CHOICE (log 5): U3 of 93_implementation_defined, "any value". -/
opaque negativeRadicandElem (draw : Nat) (eps : DWord) (row : List Int) (index : Nat) : Byte

/-- The value ISQRT leaves in RES for a negative operand: a free value of the draw and the operand.
DESIGN CHOICE (log 6): U4 of 93_implementation_defined, "any value". -/
opaque negativeSqrt (draw : Nat) (operand : DWord) : DWord

end Sys2Proof.Config
end

