-- ==== Sys2Proof/Machine/State.lean ====
section
/-! DEFINITION. The state of the engine (10_state R26, R28, R37), the model's own fields beside it, the reasons a step
can stop, and the state after reset (10_state R44, 70_reset_and_hazards R169). -/

namespace Sys2Proof.Machine

/-- The result code of the most recent command, STATUS.CODE (60_exceptions R148). -/
inductive Code where
  /-- 0: the command completed. -/
  | ok
  /-- 1: a weight element outside -1, 0, +1. -/
  | invalidWeight
  /-- 2: X_COLS differs from the layer's feature count. -/
  | shapeMismatch
  /-- 3: the unit's valid flag is 0. -/
  | errNoLayer
  /-- 4: a dimension is outside what the hardware holds. -/
  | errDim
  /-- 5: the word written to CMD is no command. -/
  | errBadCmd
deriving DecidableEq, Repr

/-- The STATUS register by its fields (10_state R28); every other bit of it always reads 0 (log 12). -/
structure Status where
  /-- CODE, bits 3:0. -/
  code : Code
  /-- BL_VALID, bit 8: a TernaryMatMul layer exists (R31). -/
  blValid : Bool
  /-- RN_VALID, bit 9: an RMSNorm layer exists (R31). -/
  rnValid : Bool
deriving DecidableEq, Repr

/-- An element memory: the elements written since reset with their indices, the indices strictly rising. An index that
is not listed has never been written and reads as no value of the memory's own (10_state R45, log 4). At `w = 8` this
is a list of `Host.Cell`. -/
abbrev Mem (w : Nat) := List (Nat × BitVec w)

/-- The machine: the engine's registers and memories, and the model's own bookkeeping of its outside. -/
@[ext]
structure State where
  /-- WMEM_SIZE, XMEM_SIZE, YMEM_SIZE, QMEM_SIZE: configuration that no step changes (00_scope R9, R23, log 3). -/
  sizes : Config.Sizes
  /-- STATUS (0x01), R28. -/
  status : Status
  /-- W_ROWS (0x02), R29. -/
  wRows : Word
  /-- W_COLS (0x03), R29. -/
  wCols : Word
  /-- SHIFT (0x04), R29. -/
  shift : Word
  /-- N_DIM (0x05), R30. -/
  nDim : Word
  /-- EPS (0x06), R30. -/
  eps : DWord
  /-- X_ROWS (0x07), R33. -/
  xRows : Word
  /-- X_COLS (0x08), R33. -/
  xCols : Word
  /-- OPA (0x09), R34. -/
  opa : DWord
  /-- RES (0x0A), R34. -/
  res : DWord
  /-- WMEM, R38. -/
  wmem : Mem 8
  /-- XMEM, R40. -/
  xmem : Mem 8
  /-- YMEM, R41. -/
  ymem : Mem 8
  /-- QMEM, R39. -/
  qmem : Mem 32
  /-- The model's own: the events that have yet to reach the engine, the next one first (log 1). -/
  inputs : List Event
  /-- The model's own: what RegRead and MemRead have returned to the host, oldest first (00_scope R24, log 2). -/
  returned : List Pattern
  /-- The model's own: how many commands have drawn a free value (log 7). -/
  freeCount : Nat
  /-- The model's own: how many reset events have happened (log 7). -/
  epoch : Nat
deriving DecidableEq, Repr

/-- Why the machine stops with a fault. Each is a host access to a place that does not exist (20_memory R64); safe: the
spec gives such a transaction no meaning (93_implementation_defined U2, log 8). -/
inductive Fault where
  /-- RegWrite or RegRead of a register number above 0x0A. Raised by the host port; safe. -/
  | unmappedRegister
  /-- MemWrite or MemRead with a space id above 3. Raised by the host port; safe. -/
  | unmappedSpace
  /-- MemWrite or MemRead at an index at or above the space's size. Raised by the host port; safe. -/
  | indexOutOfRange
deriving DecidableEq, Repr

/-- Why the machine refuses. -/
inductive Refusal where
  /-- An instruction without a meaning in the model. Raised by no arm: every command has its meaning; safe. -/
  | notModelled (mnemonic : String)
  /-- A transaction whose data has another width than its target (20_memory R64, 93_implementation_defined U2). Raised
  by the host port; safe. -/
  | wrongWidth
deriving DecidableEq, Repr

/-- The state after reset of a machine with the given sizes (10_state R44, 70_reset_and_hazards R169): every register 0,
so CODE is OK and no layer exists, and no element of any memory written. Nothing is yet to come from the host, nothing
has been returned. -/
def State.resetOf (z : Config.Sizes) : State :=
  { sizes := z
    status := { code := .ok, blValid := false, rnValid := false }
    wRows := 0, wCols := 0, shift := 0, nDim := 0, eps := 0, xRows := 0, xCols := 0, opa := 0, res := 0
    wmem := [], xmem := [], ymem := [], qmem := []
    inputs := [], returned := [], freeCount := 0, epoch := 0 }

/-- The state right after reset (10_state R44); the sizes stay open (00_scope R9, log 3). -/
def State.reset : State := State.resetOf Config.sizes

end Sys2Proof.Machine
end

