-- ==== Sys2Proof/Machine/Ops.lean ====
section
/-! DEFINITION. The named operations over the element memories and the registers, the end of a command (success and
failure), and the reset event. -/

namespace Sys2Proof.Machine

/-- What a memory holds at an index, if it was written since reset (10_state R45). -/
def Mem.read {w : Nat} : Mem w → Nat → Option (BitVec w)
  | [], _ => none
  | (j, u) :: m, i => if i = j then some u else Mem.read m i

/-- The memory with one element replaced, in canonical form again. -/
def Mem.write {w : Nat} : Mem w → Nat → BitVec w → Mem w
  | [], i, v => [(i, v)]
  | (j, u) :: m, i, v =>
    if i < j then (i, v) :: (j, u) :: m
    else if i = j then (i, v) :: m
    else (j, u) :: Mem.write m i v

/-- The memory with the elements from `base` on replaced by the list (10_state R41). -/
def Mem.writeFrom {w : Nat} (m : Mem w) (base : Nat) : List (BitVec w) → Mem w
  | [] => m
  | v :: vs => Mem.writeFrom (m.write base v) (base + 1) vs

/-- The canonical form: indices strictly rising. -/
abbrev Mem.wf {w : Nat} (m : Mem w) : Prop := m.Pairwise (fun a b => a.1 < b.1)

/-- Every listed index is below the size of the memory (10_state R37). -/
abbrev Mem.within {w : Nat} (m : Mem w) (size : Nat) : Prop := ∀ c ∈ m, c.1 < size

/-- Element `i` of WMEM as a command or the host reads it (10_state R38, R45). -/
def State.wmemAt (s : State) (i : Nat) : Byte :=
  (s.wmem.read i).getD (Config.unwritten8 s.epoch Space.wmem.id i)

/-- Element `i` of XMEM (10_state R40, R45). -/
def State.xmemAt (s : State) (i : Nat) : Byte :=
  (s.xmem.read i).getD (Config.unwritten8 s.epoch Space.xmem.id i)

/-- Element `i` of YMEM (10_state R41, R45). -/
def State.ymemAt (s : State) (i : Nat) : Byte :=
  (s.ymem.read i).getD (Config.unwritten8 s.epoch Space.ymem.id i)

/-- Element `i` of QMEM (10_state R39, R45). -/
def State.qmemAt (s : State) (i : Nat) : Word :=
  (s.qmem.read i).getD (Config.unwritten32 s.epoch i)

/-- Element `i` of a space as the pattern a `MemRead` returns (20_memory R58). -/
def State.spaceAt (s : State) (sp : Space) (i : Nat) : Pattern :=
  match sp with
  | .wmem => ⟨8, s.wmemAt i⟩
  | .xmem => ⟨8, s.xmemAt i⟩
  | .ymem => ⟨8, s.ymemAt i⟩
  | .qmem => ⟨32, s.qmemAt i⟩

/-- STATUS.CODE takes a code; nothing else changes. -/
def State.setCode (s : State) (c : Code) : State :=
  { s with status := { s.status with code := c } }

/-- STATUS.BL_VALID takes a value; nothing else changes. -/
def State.setBlValid (s : State) (b : Bool) : State :=
  { s with status := { s.status with blValid := b } }

/-- STATUS.RN_VALID takes a value; nothing else changes. -/
def State.setRnValid (s : State) (b : Bool) : State :=
  { s with status := { s.status with rnValid := b } }

/-- A command fails: `raise <Code>()` ends it, CODE takes the code, and no other state changes. There is no saved pc, no
vector and no mode (00_scope R14, 60_exceptions R152). -/
def State.raise (s : State) (c : Code) : State := s.setCode c

/-- A command ends well: `return` writes CODE with OK (00_scope R14). There is nothing else to return from
(60_exceptions R155). -/
def State.finish (s : State) : State := s.setCode .ok

/-- A value goes back to the host (20_memory R56, R58); the engine's own state does not change. -/
def State.deliver (s : State) (p : Pattern) : State := { s with returned := s.returned ++ [p] }

/-- The reset event (70_reset_and_hazards R168 to R170): the engine is as after reset and its memories are unspecified
afresh, which the epoch expresses; the sizes and the host's side stay (log 10). -/
def State.applyReset (s : State) : State :=
  { State.resetOf s.sizes with
    inputs := s.inputs, returned := s.returned, freeCount := s.freeCount, epoch := s.epoch + 1 }

end Sys2Proof.Machine
end

