-- ==== Sys2Proof/Machine/Control.lean ====
section
/-! DEFINITION. The command that only clears CODE: NOP (30_encoding R78). -/

namespace Sys2Proof.Machine

/-- NOP: `return`, that is CODE takes OK and every other bit of state stays (30_encoding R78). -/
def execNop (s : State) : Host.Outcome State Fault Refusal := .next s.finish

end Sys2Proof.Machine
end

