-- ==== Sys2Proof/Machine/Operands.lean ====
section
/-! DEFINITION. The arithmetic primitives (00_scope R11 to R18), the functions of the numeric core that the commands
share (40_ternary_matmul R92 to R97, 42_integer_sqrt R135), and the operands a command reads, each from the place the
spec gives it (20_memory R65). All of it on unbounded integers (00_scope R8). -/

namespace Sys2Proof.Machine

/-- `sext_N(p)`: the two's-complement value of a pattern (00_scope R11, log 14). -/
def sext {w : Nat} (p : BitVec w) : Int := p.toInt

/-- `zext_N(p)`: the unsigned value of a pattern (00_scope R11). -/
def zext {w : Nat} (p : BitVec w) : Nat := p.toNat

/-- `enc_N(v)`: the pattern `v mod 2^N` that stores `v` in N bits (00_scope R11). -/
def enc (w : Nat) (v : Int) : BitVec w := BitVec.ofInt w v

/-- The index of `G[p][q]` in a grid of `cols` columns stored row-major (00_scope R12). -/
def gridIndex (cols p q : Nat) : Nat := p * cols + q

/-- Arithmetic right shift, rounding toward minus infinity, for every shift amount (00_scope R16). -/
def asr (v : Int) (k : Nat) : Int := v >>> k

/-- Exact left shift, also of a negative value (00_scope R17). -/
def shl (v : Int) (k : Nat) : Int := v * 2 ^ k

/-- Division rounding toward zero (00_scope R18); no divisor of the spec is 0. -/
def tdiv (a b : Int) : Int := Int.tdiv a b

/-- What one ternary weight makes of one activation (40_ternary_matmul R92). -/
def contribution (w x : Int) : Int :=
  if w = 1 then x else if w = -1 then -x else 0

/-- One step of the accumulator stage: add, subtract or hold (40_ternary_matmul R93, log 18). -/
def accStep (acc w x : Int) : Int :=
  if w = 1 then acc + x else if w = -1 then acc - x else acc

/-- The int8 saturation (40_ternary_matmul R95, 90_conflicts C1). -/
def clampInt8 (v : Int) : Int :=
  if v < Config.elemMin then Config.elemMin
  else if v > Config.elemMax then Config.elemMax
  else v

/-- A legal weight code: 0xFF, 0x00 or 0x01 (40_ternary_matmul R97). -/
def legalWeight (p : Byte) : Bool :=
  decide (sext p = -1) || decide (sext p = 0) || decide (sext p = 1)

/-- One Newton iterate of the square root of `n` (42_integer_sqrt R135); both divisions are of non-negative integers. -/
def newtonStep (n x : Nat) : Nat := (x + n / x) / 2

/-- The Newton loop from the iterate `x`: it stops at the first `y >= x` (42_integer_sqrt R135). The first argument
bounds the number of iterations; by R137 a bound of `n` is never the one that stops it (log 19). -/
def newtonLoop (n : Nat) : Nat → Nat → Nat
  | 0, x => x
  | fuel + 1, x =>
    let y := newtonStep n x
    if y ≥ x then x else newtonLoop n fuel y

/-- The integer square root (42_integer_sqrt R135). -/
def isqrt (n : Nat) : Nat := if n < 2 then n else newtonLoop n n n

/-- R, the rows of the weight grid (10_state R29). -/
def State.r (s : State) : Nat := zext s.wRows
/-- C, the columns of the weight grid (10_state R29). -/
def State.c (s : State) : Nat := zext s.wCols
/-- D, the feature count of the RMSNorm layer (10_state R30). -/
def State.d (s : State) : Nat := zext s.nDim
/-- B, the rows of the activation matrix (10_state R33). -/
def State.b (s : State) : Nat := zext s.xRows
/-- XC, the columns of the activation matrix (10_state R33). -/
def State.xc (s : State) : Nat := zext s.xCols
/-- s, the scale shift (10_state R29). -/
def State.shiftAmount (s : State) : Nat := zext s.shift
/-- eps, the epsilon (10_state R30). -/
def State.epsilon (s : State) : Int := sext s.eps
/-- The operand of ISQRT and CLAMP8 (10_state R34). -/
def State.operand (s : State) : Int := sext s.opa

/-- `W[r][c]` (10_state R38). -/
def State.weight (s : State) (r c : Nat) : Int := sext (s.wmemAt (gridIndex s.c r c))
/-- `X[b][c]` (10_state R40). -/
def State.activation (s : State) (b c : Nat) : Int := sext (s.xmemAt (gridIndex s.xc b c))
/-- `Wq[i]` (10_state R39). -/
def State.channelWeight (s : State) (i : Nat) : Int := sext (s.qmemAt i)
/-- Row `b` of the activation matrix, its first `n` values. -/
def State.activationRow (s : State) (n b : Nat) : List Int := (List.range n).map (s.activation b)
/-- The RMSNorm weight vector of the layer, `Wq[0 .. D-1]` (10_state R39). -/
def State.channelWeights (s : State) : List Int := (List.range s.d).map s.channelWeight

end Sys2Proof.Machine
end

