-- ==== Sys2Proof/Machine/Rmsn.lean ====
section
/-! DEFINITION. The RMS normalisation unit: RN.BUILD and RN.FWD (41_rms_norm). -/

namespace Sys2Proof.Machine

/-- Step 1, the sum of squares of a row (41_rms_norm R116). -/
def sumSq (x : List Int) : Int := x.foldl (fun acc v => acc + v * v) 0

/-- Step 2, the mean square in Q24 (41_rms_norm R117). -/
def meanSqQ24 (x : List Int) : Int := tdiv (shl (sumSq x) Config.q24Shift) x.length

/-- Step 3, epsilon added (41_rms_norm R118). -/
def rmsSqQ24 (eps : Int) (x : List Int) : Int := meanSqQ24 x + asr eps Config.epsShift

/-- Step 5 for one channel: normalise (R121), apply the weight (R122), scale to the output range (R123), saturate (R124). -/
def rnChannel (rmsQ12 : Nat) (wq x : Int) : Int :=
  let normQ12 := tdiv (shl x Config.q24Shift) rmsQ12
  let weightedQ16 := asr (normQ12 * wq) Config.weightShift
  let result := asr (weightedQ16 * Config.outputScale) Config.outShift
  clampInt8 result

/-- The whole row (41_rms_norm R125). No value where the radicand is negative (R126); all zero where the root is 0, the
bypass (R120). -/
def rnRow (wq : List Int) (eps : Int) (x : List Int) : Option (List Int) :=
  if rmsSqQ24 eps x < 0 then none
  else
    let rmsQ12 := isqrt (rmsSqQ24 eps x).toNat
    if rmsQ12 = 0 then some (x.map (fun _ => 0))
    else some (List.zipWith (rnChannel rmsQ12) wq x)

/-- Row `b` of the output under the present layer, where it is defined (41_rms_norm R113, R115). -/
def State.rnOutput (s : State) (b : Nat) : Option (List Int) :=
  rnRow s.channelWeights s.epsilon (s.activationRow s.d b)

/-- The D patterns that a row of negative radicand leaves: free values (41_rms_norm R126, U3, log 5). -/
def State.undefinedRow (s : State) (b : Nat) : List Byte :=
  (List.range s.d).map (fun i =>
    Config.negativeRadicandElem s.freeCount s.eps (s.activationRow s.d b) (gridIndex s.d b i))

/-- Row `b` of the output as it is stored (41_rms_norm R115, R124, R126). -/
def State.rnStoredRow (s : State) (b : Nat) : List Byte :=
  match s.rnOutput b with
  | some y => y.map (enc 8)
  | none => s.undefinedRow b

/-- The whole output, row-major (00_scope R12, 41_rms_norm R115). -/
def State.rnGrid (s : State) : List Byte := (List.range s.b).flatMap s.rnStoredRow

/-- Whether every row of the activation matrix has a defined output (41_rms_norm R126). -/
def State.rnDefined (s : State) : Bool := (List.range s.b).all (fun b => (s.rnOutput b).isSome)

/-- RN.BUILD: construct the RMSNorm layer (41_rms_norm R114). -/
def execRnBuild (s : State) : Host.Outcome State Fault Refusal :=
  if s.d = 0 ∨ s.d > Config.maxD ∨ s.d > s.sizes.qmem then .next ((s.setRnValid false).raise .errDim)
  else .next (s.setRnValid true).finish

/-- RN.FWD: apply the layer (41_rms_norm R115); the tests stand in the order of 60_exceptions R151. The free values of
undefined rows come from one draw (log 7). -/
def execRnFwd (s : State) : Host.Outcome State Fault Refusal :=
  if s.status.rnValid = false then .next (s.raise .errNoLayer)
  else if s.xc ≠ s.d then .next (s.raise .shapeMismatch)
  else if s.b * s.d > s.sizes.xmem ∨ s.b * s.d > s.sizes.ymem then .next (s.raise .errDim)
  else .next (State.finish { s with
    ymem := s.ymem.writeFrom 0 s.rnGrid
    freeCount := if s.rnDefined then s.freeCount else s.freeCount + 1 })

end Sys2Proof.Machine
end

