-- ==== Sys2Proof/Machine/Sqrt.lean ====
section
/-! DEFINITION. The integer square root unit: the ISQRT command (42_integer_sqrt). -/

namespace Sys2Proof.Machine

/-- ISQRT: the square root alone, from OPA to RES (42_integer_sqrt R140). A negative operand leaves RES unspecified, a
free value, and CODE is OK all the same (R139, U4, log 6). -/
def execIsqrt (s : State) : Host.Outcome State Fault Refusal :=
  if s.operand < 0 then
    .next (State.finish { s with res := Config.negativeSqrt s.freeCount s.opa, freeCount := s.freeCount + 1 })
  else .next (State.finish { s with res := enc 64 (isqrt s.operand.toNat) })

end Sys2Proof.Machine
end

