-- ==== Sys2Proof/Machine/Tmm.lean ====
section
/-! DEFINITION. The ternary matrix-multiply unit: BL.BUILD, BL.FWD and the saturator alone, CLAMP8
(40_ternary_matmul). -/

namespace Sys2Proof.Machine

/-- The accumulator stage: the sum of one dot product, column by column from 0 (40_ternary_matmul R90, R93). -/
def State.dotProduct (s : State) (b r : Nat) : Int :=
  (List.range s.c).foldl (fun acc c => accStep acc (s.weight r c) (s.activation b c)) 0

/-- `Y[b][r]`: the accumulator, then the rescale stage, then the saturation stage (40_ternary_matmul R90, R94, R95). -/
def State.tmmOutput (s : State) (b r : Nat) : Int := clampInt8 (asr (s.dotProduct b r) s.shiftAmount)

/-- Row `b` of the output as it is stored (40_ternary_matmul R99). -/
def State.tmmRow (s : State) (b : Nat) : List Byte := (List.range s.r).map (fun r => enc 8 (s.tmmOutput b r))

/-- The whole output, row-major (00_scope R12, 40_ternary_matmul R99). -/
def State.tmmGrid (s : State) : List Byte := (List.range s.b).flatMap s.tmmRow

/-- Every weight of the staged grid is legal (40_ternary_matmul R97, R98). -/
def State.weightsLegal (s : State) : Bool := (List.range (s.r * s.c)).all (fun i => legalWeight (s.wmemAt i))

/-- BL.BUILD: construct the TernaryMatMul layer (40_ternary_matmul R98). -/
def execBlBuild (s : State) : Host.Outcome State Fault Refusal :=
  if s.c > Config.maxC ∨ s.r * s.c > s.sizes.wmem then .next ((s.setBlValid false).raise .errDim)
  else if s.weightsLegal = false then .next ((s.setBlValid false).raise .invalidWeight)
  else .next (s.setBlValid true).finish

/-- BL.FWD: apply the layer (40_ternary_matmul R99); the tests stand in the order of 60_exceptions R151. -/
def execBlFwd (s : State) : Host.Outcome State Fault Refusal :=
  if s.status.blValid = false then .next (s.raise .errNoLayer)
  else if s.xc ≠ s.c then .next (s.raise .shapeMismatch)
  else if s.b * s.c > s.sizes.xmem ∨ s.b * s.r > s.sizes.ymem then .next (s.raise .errDim)
  else .next (State.finish { s with ymem := s.ymem.writeFrom 0 s.tmmGrid })

/-- CLAMP8: the saturator alone, from OPA to RES (40_ternary_matmul R100). -/
def execClamp8 (s : State) : Host.Outcome State Fault Refusal :=
  .next (State.finish { s with res := enc 64 (clampInt8 s.operand) })

end Sys2Proof.Machine
end

