-- ==== Sys2Proof/Machine/Dispatch.lean ====
section
/-! DEFINITION. The dispatch: one arm per command of 30_encoding R77. -/

namespace Sys2Proof.Machine

def exec (i : Instr) (s : State) : Host.Outcome State Fault Refusal :=
  match i with
  | .nop => Sys2Proof.Machine.execNop s
  | .blBuild => Sys2Proof.Machine.execBlBuild s
  | .blFwd => Sys2Proof.Machine.execBlFwd s
  | .rnBuild => Sys2Proof.Machine.execRnBuild s
  | .rnFwd => Sys2Proof.Machine.execRnFwd s
  | .isqrt => Sys2Proof.Machine.execIsqrt s
  | .clamp8 => Sys2Proof.Machine.execClamp8 s

end Sys2Proof.Machine
end

