-- ==== Sys2Proof/Machine/Flags.lean ====
section
/-! DEFINITION. The STATUS register as a word (10_state R28), the numbers of the result codes (60_exceptions R148) and
the rules by which a host write clears a valid flag (10_state R32, R35). The engine has no other flag. -/

namespace Sys2Proof.Machine

/-- The number of a result code (60_exceptions R148). -/
def Code.number : Code → BitVec 4
  | .ok => 0
  | .invalidWeight => 1
  | .shapeMismatch => 2
  | .errNoLayer => 3
  | .errDim => 4
  | .errBadCmd => 5

/-- The STATUS register as it reads: CODE in bits 3:0, BL_VALID in bit 8, RN_VALID in bit 9, zero elsewhere
(10_state R28). -/
def Status.word (st : Status) : Word :=
  (0 : BitVec 22) ++ BitVec.ofBool st.rnValid ++ BitVec.ofBool st.blValid ++ (0 : BitVec 4) ++ st.code.number

/-- A host write to a parameter of the TMM unit destroys its layer (10_state R32). -/
def State.invalidateBl (s : State) : State := s.setBlValid false

/-- A host write to a parameter of the RMSN unit destroys its layer (10_state R32). -/
def State.invalidateRn (s : State) : State := s.setRnValid false

end Sys2Proof.Machine
end

