-- ==== Sys2Proof/WellFormed.lean ====
section
/-! DEFINITION. Which commands and which transactions are well formed: a command has no operand to check
(30_encoding R80); a transaction stays inside the map (20_memory R64). -/

namespace Sys2Proof

/-- Every command is well formed: its word carries no operand (30_encoding R80). -/
def Instr.wf : Instr → Bool
  | .nop => true
  | .blBuild => true
  | .blFwd => true
  | .rnBuild => true
  | .rnFwd => true
  | .isqrt => true
  | .clamp8 => true

/-- The number of elements of a space (10_state R37). -/
def Config.Sizes.ofSpace (z : Config.Sizes) : Space → Nat
  | .wmem => z.wmem
  | .xmem => z.xmem
  | .ymem => z.ymem
  | .qmem => z.qmem

/-- The open sizes satisfy their one constraint: each is at least 1 (00_scope R9). -/
def Config.Sizes.wf (z : Config.Sizes) : Bool :=
  decide (1 ≤ z.wmem) && decide (1 ≤ z.xmem) && decide (1 ≤ z.ymem) && decide (1 ≤ z.qmem)

/-- A transaction is inside the map: a defined register number or space id, an index below the size, and data of
exactly the width of the target (20_memory R55 to R58, R64). -/
def Transaction.wf (z : Config.Sizes) : Transaction → Bool
  | .regWrite n v => match Reg.ofNumber n with
    | some r => decide (v.width = r.width)
    | none => false
  | .regRead n => (Reg.ofNumber n).isSome
  | .memWrite sp i v => match Space.ofId sp with
    | some space => decide (i < z.ofSpace space) && decide (v.width = space.width)
    | none => false
  | .memRead sp i w => match Space.ofId sp with
    | some space => decide (i < z.ofSpace space) && decide (w = space.width)
    | none => false

/-- A reset event is always well formed (70_reset_and_hazards R168). -/
def Event.wf (z : Config.Sizes) : Event → Bool
  | .transaction t => t.wf z
  | .reset => true

end Sys2Proof
end

