-- ==== Sys2Proof/Machine/Port.lean ====
section
/-! DEFINITION. The host port: what each of the four transactions does (20_memory R55 to R58, R64), the arrival of an
event, and the event by which a command word reaches the engine (10_state R25, R27). -/

namespace Sys2Proof.Machine

/-- A write of a word to CMD: it is decoded and the command it names runs to completion (10_state R27); a word that
names no command changes only CODE (30_encoding R79, R83). -/
def writeCmd (w : Word) (s : State) : Host.Outcome State Fault Refusal :=
  match decode w with
  | .ok i => exec i s
  | .error _ => .next (s.raise .errBadCmd)

/-- A write of a 32-bit register other than CMD (20_memory R55): a parameter register takes the value and its layer is
destroyed, a descriptor register takes the value, STATUS ignores the write. The 64-bit registers are not written here. -/
def State.writeReg32 (s : State) (r : Reg) (v : Word) : State :=
  match r with
  | .wRows => State.invalidateBl { s with wRows := v }
  | .wCols => State.invalidateBl { s with wCols := v }
  | .shift => State.invalidateBl { s with shift := v }
  | .nDim => State.invalidateRn { s with nDim := v }
  | .xRows => { s with xRows := v }
  | .xCols => { s with xCols := v }
  | .cmd => s
  | .status => s
  | .eps => s
  | .opa => s
  | .res => s

/-- A write of a 64-bit register (20_memory R55): EPS takes the value and its layer is destroyed, OPA takes the value,
RES ignores the write. The 32-bit registers are not written here. -/
def State.writeReg64 (s : State) (r : Reg) (v : DWord) : State :=
  match r with
  | .eps => State.invalidateRn { s with eps := v }
  | .opa => { s with opa := v }
  | .res => s
  | .cmd => s
  | .status => s
  | .wRows => s
  | .wCols => s
  | .shift => s
  | .nDim => s
  | .xRows => s
  | .xCols => s

/-- What a register reads as, at its width: 0 for CMD, the fields for STATUS, the stored value for the others
(20_memory R56). -/
def State.readReg (s : State) : Reg → Pattern
  | .cmd => ⟨32, 0⟩
  | .status => ⟨32, s.status.word⟩
  | .wRows => ⟨32, s.wRows⟩
  | .wCols => ⟨32, s.wCols⟩
  | .shift => ⟨32, s.shift⟩
  | .nDim => ⟨32, s.nDim⟩
  | .eps => ⟨64, s.eps⟩
  | .xRows => ⟨32, s.xRows⟩
  | .xCols => ⟨32, s.xCols⟩
  | .opa => ⟨64, s.opa⟩
  | .res => ⟨64, s.res⟩

/-- `RegWrite(n, v)` (20_memory R55). -/
def regWrite (n : Nat) (v : Pattern) (s : State) : Host.Outcome State Fault Refusal :=
  match Reg.ofNumber n with
  | none => .fault .unmappedRegister
  | some r =>
    if v.width ≠ r.width then .refused .wrongWidth
    else if r = .cmd then writeCmd (v.bits.setWidth 32) s
    else if r.width = 32 then .next (s.writeReg32 r (v.bits.setWidth 32))
    else .next (s.writeReg64 r (v.bits.setWidth 64))

/-- `RegRead(n)` (20_memory R56). -/
def regRead (n : Nat) (s : State) : Host.Outcome State Fault Refusal :=
  match Reg.ofNumber n with
  | none => .fault .unmappedRegister
  | some r => .next (s.deliver (s.readReg r))

/-- The store of a `MemWrite` that is inside the map (20_memory R57): WMEM destroys the TMM layer, QMEM the RMSN layer. -/
def State.writeSpace (s : State) (sp : Space) (i : Nat) (p : Pattern) : State :=
  match sp with
  | .wmem => State.invalidateBl { s with wmem := s.wmem.write i (p.bits.setWidth 8) }
  | .xmem => { s with xmem := s.xmem.write i (p.bits.setWidth 8) }
  | .ymem => { s with ymem := s.ymem.write i (p.bits.setWidth 8) }
  | .qmem => State.invalidateRn { s with qmem := s.qmem.write i (p.bits.setWidth 32) }

/-- `MemWrite(SPACE[i], n, p)`, n the width of p (20_memory R57). -/
def memWrite (sp i : Nat) (p : Pattern) (s : State) : Host.Outcome State Fault Refusal :=
  match Space.ofId sp with
  | none => .fault .unmappedSpace
  | some space =>
    if s.sizes.ofSpace space ≤ i then .fault .indexOutOfRange
    else if p.width ≠ space.width then .refused .wrongWidth
    else .next (s.writeSpace space i p)

/-- `MemRead(SPACE[i], n)` (20_memory R58). -/
def memRead (sp i w : Nat) (s : State) : Host.Outcome State Fault Refusal :=
  match Space.ofId sp with
  | none => .fault .unmappedSpace
  | some space =>
    if s.sizes.ofSpace space ≤ i then .fault .indexOutOfRange
    else if w ≠ space.width then .refused .wrongWidth
    else .next (s.deliver (s.spaceAt space i))

/-- One transaction, in full (00_scope R6, 20_memory R66). -/
def transact (t : Transaction) (s : State) : Host.Outcome State Fault Refusal :=
  match t with
  | .regWrite n v => regWrite n v s
  | .regRead n => regRead n s
  | .memWrite sp i p => memWrite sp i p s
  | .memRead sp i w => memRead sp i w s

/-- What one event does to the engine. -/
def handle (e : Event) (s : State) : Host.Outcome State Fault Refusal :=
  match e with
  | .transaction t => transact t s
  | .reset => .next s.applyReset

/-- The next event, taken off the host's list; with nothing to come the engine does nothing
(70_reset_and_hazards R169, log 9). -/
def advance (s : State) : Host.Outcome State Fault Refusal :=
  match s.inputs with
  | [] => .next s
  | e :: rest => handle e { s with inputs := rest }

/-- The event by which the host issues a command word: a RegWrite of the whole word to CMD (10_state R25, R27). -/
def commandEvent (w : Word) : Event := .transaction (.regWrite Reg.cmd.number ⟨32, w⟩)

end Sys2Proof.Machine
end

