-- ==== Sys2Proof/Machine/Step.lean ====
section
/-! DEFINITION. The step: the next event reaches the engine and takes effect in full (00_scope R6, R22). -/

namespace Sys2Proof.Machine

/-- One step of the machine: one event of the host, a command included in the CMD write that issues it
(00_scope R6, R22, 20_memory R66). -/
def step (s : State) : Host.Outcome State Fault Refusal := advance s

/-- The state with an instruction as the very next thing the host writes to CMD (log 1). -/
def State.withFetchWord (s : State) (nbits w : Nat) : State :=
  { s with inputs := commandEvent (BitVec.ofNat 32 (w % 2 ^ nbits)) :: s.inputs }

end Sys2Proof.Machine
end

