-- ==== Sys2Proof/Machine/Script.lean ====
section
/-! DEFINITION. The host-script notation: the four lines and their encoding (30_encoding R84) and the pseudo-instructions
with their expansions (R85), as lists of transactions. -/

namespace Sys2Proof.Machine

/-- `wr <REG>, <value>`: the value as the pattern of the register's width (30_encoding R84, log 20). -/
def scriptWr (r : Reg) (value : Int) : Transaction := .regWrite r.number ⟨r.width, enc r.width value⟩
/-- `rd <REG>` (30_encoding R84). -/
def scriptRd (r : Reg) : Transaction := .regRead r.number
/-- `wm <SPACE>[<i>], <value>` (30_encoding R84, log 20). -/
def scriptWm (sp : Space) (i : Nat) (value : Int) : Transaction := .memWrite sp.id i ⟨sp.width, enc sp.width value⟩
/-- `rm <SPACE>[<i>]` (30_encoding R84). -/
def scriptRm (sp : Space) (i : Nat) : Transaction := .memRead sp.id i sp.width

/-- The kind of an encoded line (30_encoding R84). -/
inductive LineKind where
  | rw | rr | mw | mr
deriving DecidableEq, Repr

/-- The target of an encoded line: a register number, or space id and index (30_encoding R84). -/
inductive LineTarget where
  | register (number : Nat)
  | element (space index : Nat)
deriving DecidableEq, Repr

/-- The encoding of a line: the triple of kind, target and data; a read line carries no data of its own
(30_encoding R84). -/
def encodeLine : Transaction → LineKind × LineTarget × Option Pattern
  | .regWrite n v => (.rw, .register n, some v)
  | .regRead n => (.rr, .register n, none)
  | .memWrite sp i v => (.mw, .element sp i, some v)
  | .memRead sp i _ => (.mr, .element sp i, none)

/-- `cmd <MNEMONIC>` (30_encoding R85). -/
def scriptCmd (i : Instr) : Transaction := scriptWr .cmd (zext (encode i))

/-- The elements of a vector from index `i` on, in order. -/
def scriptWmFrom (sp : Space) (i : Nat) : List Int → List Transaction
  | [] => []
  | v :: vs => scriptWm sp i v :: scriptWmFrom sp (i + 1) vs

/-- `ldvec <SPACE>, [a0, a1, ...]` (30_encoding R85). -/
def scriptLdvec (sp : Space) (vs : List Int) : List Transaction := scriptWmFrom sp 0 vs

/-- The columns of a grid, where every row has the same length (30_encoding R85); a ragged grid has no carrier (R81). -/
def gridCols (g : List (List Int)) : Option Nat :=
  let q := (g.headD []).length
  if g.all (fun row => decide (row.length = q)) then some q else none

/-- `ldgrid <SPACE>, [[...],...]`: the elements row by row (30_encoding R85); none for a ragged grid. -/
def scriptLdgrid (sp : Space) (g : List (List Int)) : Option (List Transaction) :=
  (gridCols g).map (fun _ => scriptLdvec sp g.flatten)

/-- `rdvec <SPACE>, <i0>, <count>` (30_encoding R85). -/
def scriptRdvec (sp : Space) (i0 count : Nat) : List Transaction :=
  (List.range count).map (fun k => scriptRm sp (i0 + k))

/-- `bitlinear [[...],...], s` (30_encoding R85). -/
def scriptBitlinear (g : List (List Int)) (s : Int) : Option (List Transaction) :=
  (gridCols g).map (fun q =>
    [scriptWr .wRows g.length, scriptWr .wCols q, scriptWr .shift s] ++ scriptLdvec .wmem g.flatten
      ++ [scriptCmd .blBuild])

/-- `rmsnorm [w0, w1, ...], eps` (30_encoding R85). -/
def scriptRmsnorm (w : List Int) (eps : Int) : List Transaction :=
  [scriptWr .nDim w.length, scriptWr .eps eps] ++ scriptLdvec .qmem w ++ [scriptCmd .rnBuild]

/-- The lines shared by the two forward pseudo-instructions: descriptor, activations, command (30_encoding R85). -/
def scriptForward (i : Instr) (g : List (List Int)) : Option (List Transaction) :=
  (gridCols g).map (fun q =>
    [scriptWr .xRows g.length, scriptWr .xCols q] ++ scriptLdvec .xmem g.flatten ++ [scriptCmd i])

/-- `forward.bl [[...],...]` (30_encoding R85). -/
def scriptForwardBl (g : List (List Int)) : Option (List Transaction) := scriptForward .blFwd g

/-- `forward.rn [[...],...]` (30_encoding R85). -/
def scriptForwardRn (g : List (List Int)) : Option (List Transaction) := scriptForward .rnFwd g

end Sys2Proof.Machine
end

