-- ==== Sys2Proof/Safety.lean ====
section
/-! DEFINITION. What holds of the machine at all times: the canonical form of the memories and what a valid flag stands
for (10_state R31), and what makes a run safe: the host stays inside the map (20_memory R64). -/

namespace Sys2Proof.Machine

/-- The memories are in canonical form and inside their sizes (10_state R37). -/
structure State.MemoryWf (s : State) : Prop where
  wmem_wf : s.wmem.wf
  xmem_wf : s.xmem.wf
  ymem_wf : s.ymem.wf
  qmem_wf : s.qmem.wf
  wmem_within : s.wmem.within s.sizes.wmem
  xmem_within : s.xmem.within s.sizes.xmem
  ymem_within : s.ymem.within s.sizes.ymem
  qmem_within : s.qmem.within s.sizes.qmem

/-- What BL_VALID = 1 stands for (10_state R31): the grid fits and every weight of it is legal. -/
structure State.BlLayer (s : State) : Prop where
  cols_le : s.c ≤ Config.maxC
  fits : s.r * s.c ≤ s.sizes.wmem
  legal : ∀ i, i < s.r * s.c → legalWeight (s.wmemAt i) = true

/-- What RN_VALID = 1 stands for (10_state R31): 1 <= D <= min(MAX_D, QMEM_SIZE). -/
structure State.RnLayer (s : State) : Prop where
  pos : 1 ≤ s.d
  le_max : s.d ≤ Config.maxD
  fits : s.d ≤ s.sizes.qmem

/-- The invariant of the machine: sizes as R9 constrains them, memories in form, and each valid flag true of its layer. -/
structure State.Inv (s : State) : Prop where
  sizes_wf : s.sizes.wf = true
  memory : s.MemoryWf
  bl : s.status.blValid = true → s.BlLayer
  rn : s.status.rnValid = true → s.RnLayer

/-- The host has only transactions inside the map to come (20_memory R64). -/
abbrev State.HostWf (s : State) : Prop := ∀ e ∈ s.inputs, e.wf s.sizes = true

/-- The state with one transaction as the host's next (20_memory R66). -/
def State.given (s : State) (t : Transaction) : State := { s with inputs := .transaction t :: s.inputs }

/-- An activation or output value (00_scope R7, R10). -/
abbrev IsInt8 (v : Int) : Prop := -128 ≤ v ∧ v ≤ 127
/-- A 32-bit signed value (00_scope R10). -/
abbrev IsInt32 (v : Int) : Prop := -2 ^ 31 ≤ v ∧ v ≤ 2 ^ 31 - 1
/-- A 64-bit signed value (00_scope R10). -/
abbrev IsInt64 (v : Int) : Prop := -2 ^ 63 ≤ v ∧ v ≤ 2 ^ 63 - 1

/-- The radicand of a row by steps 1 to 3 (41_rms_norm R116 to R118), written with a sum: the reference that the
statements compare RN.FWD with. -/
def State.radicand (s : State) (b : Nat) : Int :=
  Int.tdiv ((∑ i ∈ Finset.range s.d, s.activation b i * s.activation b i) * 2 ^ 24) s.d + Int.fdiv s.epsilon (2 ^ 8)

end Sys2Proof.Machine
end

