-- ==== Sys2Proof/Certificates/Slice0/Obligations.lean ====
section
/-! DEFINITION. The statements for the provers. Each docstring names the rule of spec/ it formalises. A statement about a
free value (log 4 to 7) holds for every value of it. -/

open Sys2Proof Sys2Proof.Machine

/-! ### Encoding -/

/-- The word of each command (30_encoding R77). -/
def Obligations.CommandWordsDecode : Prop :=
  decode 0x00000000#32 = .ok .nop ∧ decode 0x00000001#32 = .ok .blBuild ∧ decode 0x00000002#32 = .ok .blFwd ∧
  decode 0x00000003#32 = .ok .rnBuild ∧ decode 0x00000004#32 = .ok .rnFwd ∧ decode 0x00000005#32 = .ok .isqrt ∧
  decode 0x00000006#32 = .ok .clamp8

/-- On all 2^32 words, decoding and encoding agree: a word decodes to a command exactly when it is that command's word
(30_encoding R77, R79). -/
def Obligations.DecodeAgreesWithEncode : Prop :=
  ∀ (w : Word) (i : Instr), decode w = .ok i ↔ w = encode i

/-- A word that names no command changes CODE and nothing else (30_encoding R79). -/
def Obligations.IllegalWordChangesOnlyCode : Prop :=
  ∀ (s : State) (w : Word) (rest : List Event), s.inputs = commandEvent w :: rest → (∀ i, w ≠ encode i) →
    step s = .next { s with inputs := rest, status := { s.status with code := .errBadCmd } }

/-- A step whose next event is a CMD write of a command's word runs that command (10_state R25, R27). -/
def Obligations.StepRunsDecodedCommand : Prop :=
  ∀ (s : State) (w : Word) (rest : List Event) (i : Instr), s.inputs = commandEvent w :: rest → decode w = .ok i →
    step s = exec i { s with inputs := rest }

/-- The word placed as the host's next CMD write is the one the next step runs; the list of the host's events is
the model's own (log 1). -/
def Obligations.StepRunsFetchWord : Prop :=
  ∀ (s : State) (nbits w : Nat) (i : Instr), decodeTableWord nbits w = some i →
    step (s.withFetchWord nbits w) = exec i s

/-! ### Primitives -/

/-- The arithmetic right shift is the floor of the quotient, for every shift amount (00_scope R16). -/
def Obligations.ArithmeticShiftFloors : Prop :=
  (∀ (v : Int) (k : Nat), asr v k * 2 ^ k ≤ v ∧ v < (asr v k + 1) * 2 ^ k) ∧
  (∀ (v : Int) (k : Nat), |v| < 2 ^ k → asr v k = if 0 ≤ v then 0 else -1) ∧
  (∀ k : Nat, asr (-1) k = -1) ∧ (∀ v : Int, asr v 0 = v) ∧ asr (-127) 1 = -64 ∧ asr 1 1 = 0

/-- The division rounds toward zero (00_scope R18). -/
def Obligations.DivisionTruncates : Prop :=
  ∀ a b : Int, b ≠ 0 → |tdiv a b| = |a| / |b| ∧
    (tdiv a b ≠ 0 → (0 < tdiv a b ↔ (0 < a ↔ 0 < b)))

/-- The int8 saturation, its idempotence and its monotonicity (40_ternary_matmul R95). -/
def Obligations.ClampSaturates : Prop :=
  (∀ v : Int, clampInt8 v = if v < -128 then -128 else if v > 127 then 127 else v) ∧
  (∀ v : Int, clampInt8 (clampInt8 v) = clampInt8 v) ∧
  (∀ v v' : Int, v ≤ v' → clampInt8 v ≤ clampInt8 v') ∧
  clampInt8 (-127) = -127 ∧ clampInt8 (-128) = -128 ∧ clampInt8 127 = 127

/-- The integer square root is the floor of the square root (42_integer_sqrt R136). -/
def Obligations.IsqrtIsFloorSqrt : Prop :=
  (∀ n : Nat, isqrt n ^ 2 ≤ n ∧ n < (isqrt n + 1) ^ 2) ∧ (∀ k : Nat, isqrt (k ^ 2) = k) ∧
  (∀ k : Nat, 1 ≤ k → isqrt (k ^ 2 - 1) = k - 1) ∧ (∀ n : Nat, isqrt n = 0 → n = 0) ∧
  (∀ n m : Nat, n ≤ m → isqrt n ≤ isqrt m)

/-- The invariants of the Newton loop and its termination within n - s + 1 iterations (42_integer_sqrt R137), and the
largest sum it forms (R138). -/
def Obligations.NewtonLoopTerminates : Prop :=
  ∀ n : Nat, 2 ≤ n →
    (∀ x, 1 ≤ x → Nat.sqrt n ≤ newtonStep n x) ∧
    (∀ x, Nat.sqrt n < x → n < x * x ∧ newtonStep n x < x) ∧
    Nat.sqrt n ≤ newtonStep n (Nat.sqrt n) ∧
    (∀ x, 1 ≤ x → x ≤ n → x + n / x ≤ n + 1) ∧
    (∀ fuel, n - Nat.sqrt n + 1 ≤ fuel → newtonLoop n fuel n = Nat.sqrt n)

/-- Steps 5b and 5c are one shift by 22, and step 5c a shift by 10 (41_rms_norm R129). -/
def Obligations.OutputShiftsCompose : Prop :=
  (∀ w : Int, asr (w * 64) 16 = asr w 10) ∧ (∀ a : Int, asr (asr a 12 * 64) 16 = asr a 22)

/-! ### NOP -/

/-- NOP writes OK into CODE and nothing else (30_encoding R78). -/
def Obligations.NopClearsCode : Prop :=
  ∀ s : State, exec .nop s = .next { s with status := { s.status with code := .ok } }

/-! ### The TMM unit -/

/-- BL.BUILD in its three outcomes, each with the frame of the whole state (40_ternary_matmul R97, R98). -/
def Obligations.BlBuildValidates : Prop :=
  ∀ s : State,
    (s.wCols.toNat ≤ 16777215 → s.wRows.toNat * s.wCols.toNat ≤ s.sizes.wmem →
      (∀ i, i < s.wRows.toNat * s.wCols.toNat → s.wmemAt i = 0xFF#8 ∨ s.wmemAt i = 0x00#8 ∨ s.wmemAt i = 0x01#8) →
      exec .blBuild s = .next { s with status := { s.status with code := .ok, blValid := true } }) ∧
    (16777215 < s.wCols.toNat ∨ s.sizes.wmem < s.wRows.toNat * s.wCols.toNat →
      exec .blBuild s = .next { s with status := { s.status with code := .errDim, blValid := false } }) ∧
    (s.wCols.toNat ≤ 16777215 → s.wRows.toNat * s.wCols.toNat ≤ s.sizes.wmem →
      (∃ i, i < s.wRows.toNat * s.wCols.toNat ∧
        s.wmemAt i ≠ 0xFF#8 ∧ s.wmemAt i ≠ 0x00#8 ∧ s.wmemAt i ≠ 0x01#8) →
      exec .blBuild s = .next { s with status := { s.status with code := .invalidWeight, blValid := false } })

/-- BL.FWD's three failures in their order; each changes CODE and nothing else (40_ternary_matmul R99,
60_exceptions R151, R152). -/
def Obligations.BlFwdFailsInOrder : Prop :=
  ∀ s : State,
    (s.status.blValid = false → exec .blFwd s = .next { s with status := { s.status with code := .errNoLayer } }) ∧
    (s.status.blValid = true → s.xCols ≠ s.wCols →
      exec .blFwd s = .next { s with status := { s.status with code := .shapeMismatch } }) ∧
    (s.status.blValid = true → s.xCols = s.wCols →
      s.sizes.xmem < s.xRows.toNat * s.wCols.toNat ∨ s.sizes.ymem < s.xRows.toNat * s.wRows.toNat →
      exec .blFwd s = .next { s with status := { s.status with code := .errDim } })

/-- BL.FWD computes the contract, `Y[b][r]` the clamped floor of the sum of contributions over 2^s, at row-major
places, and leaves every other element of YMEM and all other state but CODE as it was (40_ternary_matmul R91, R105;
10_state R41). -/
def Obligations.BlFwdMeetsContract : Prop :=
  ∀ s : State, s.status.blValid = true → s.xCols = s.wCols →
    s.xRows.toNat * s.wCols.toNat ≤ s.sizes.xmem → s.xRows.toNat * s.wRows.toNat ≤ s.sizes.ymem →
    ∃ y : Mem 8, exec .blFwd s = .next { s with ymem := y, status := { s.status with code := .ok } } ∧
      (∀ b r, b < s.xRows.toNat → r < s.wRows.toNat → ∃ p, y.read (b * s.wRows.toNat + r) = some p ∧
        p.toInt = max (-128) (min 127 (Int.fdiv
          (∑ c ∈ Finset.range s.wCols.toNat, contribution (s.wmemAt (r * s.wCols.toNat + c)).toInt
            (s.xmemAt (b * s.xCols.toNat + c)).toInt) (2 ^ s.shift.toNat)))) ∧
      (∀ k, s.xRows.toNat * s.wRows.toNat ≤ k → y.read k = s.ymem.read k)

/-- The accumulator of a layer that BL.BUILD admitted is exact in 32 signed bits: the sum over any set of columns fits,
and the whole sum is the mathematical one (40_ternary_matmul R96). -/
def Obligations.AccumulatorFitsInt32 : Prop :=
  ∀ s : State, s.Inv → s.status.blValid = true → ∀ b r, r < s.r →
    (∀ cols : Finset Nat, cols ⊆ Finset.range s.c →
      |∑ c ∈ cols, contribution (s.weight r c) (s.activation b c)| ≤ 128 * cols.card ∧
      |∑ c ∈ cols, contribution (s.weight r c) (s.activation b c)| ≤ 2147483520) ∧
    s.dotProduct b r = ∑ c ∈ Finset.range s.c, contribution (s.weight r c) (s.activation b c)

/-- A shift count of 31 or more acts as 31: the rescale stage gives 0 or -1 (40_ternary_matmul R102). -/
def Obligations.ShiftCountSaturatesAt31 : Prop :=
  ∀ s : State, s.Inv → s.status.blValid = true → ∀ b r, r < s.r →
    asr (s.dotProduct b r) s.shiftAmount = asr (s.dotProduct b r) (min s.shiftAmount 31) ∧
    (31 ≤ s.shiftAmount → asr (s.dotProduct b r) s.shiftAmount = if 0 ≤ s.dotProduct b r then 0 else -1)

/-- An output element of BL.FWD depends on its weight row, its activation row, C and the shift only
(40_ternary_matmul R91, R104). -/
def Obligations.BlFwdElementsIndependent : Prop :=
  ∀ (s s' t t' : State) (b b' r r' : Nat), exec .blFwd s = .next t → exec .blFwd s' = .next t' →
    t.status.code = .ok → t'.status.code = .ok → b < s.b → b' < s'.b → r < s.r → r' < s'.r →
    s.c = s'.c → s.shift = s'.shift → (∀ c, c < s.c → s.weight r c = s'.weight r' c) →
    (∀ c, c < s.c → s.activation b c = s'.activation b' c) →
    t.ymem.read (b * s.r + r) = t'.ymem.read (b' * s'.r + r')

/-- BL.FWD's code and output are a function of the state its footprint names (20_memory R65, 40_ternary_matmul R103). -/
def Obligations.BlFwdReadsOnlyFootprint : Prop :=
  ∀ s s' t t' : State, exec .blFwd s = .next t → exec .blFwd s' = .next t' → s.sizes = s'.sizes →
    s.status.blValid = s'.status.blValid → s.wRows = s'.wRows → s.wCols = s'.wCols → s.shift = s'.shift →
    s.xRows = s'.xRows → s.xCols = s'.xCols → (∀ i, i < s.r * s.c → s.wmemAt i = s'.wmemAt i) →
    (∀ i, i < s.b * s.c → s.xmemAt i = s'.xmemAt i) →
    t.status.code = t'.status.code ∧
    (t.status.code = .ok → ∀ k, k < s.b * s.r → t.ymem.read k = t'.ymem.read k)

/-- CLAMP8 saturates OPA into RES (40_ternary_matmul R100). -/
def Obligations.ClampEightSaturatesOperand : Prop :=
  ∀ s : State, exec .clamp8 s = .next { s with
    res := BitVec.ofInt 64 (max (-128) (min 127 s.opa.toInt)), status := { s.status with code := .ok } }

/-- Copying RES to OPA and running CLAMP8 again gives the same RES (40_ternary_matmul R100). -/
def Obligations.ClampEightIdempotent : Prop :=
  ∀ s t u : State, exec .clamp8 s = .next t → exec .clamp8 { t with opa := t.res } = .next u → u.res = t.res

/-! ### The RMSN unit -/

/-- RN.BUILD in its two outcomes, each with the frame of the whole state (41_rms_norm R114). -/
def Obligations.RnBuildChecksDimension : Prop :=
  ∀ s : State,
    (1 ≤ s.nDim.toNat → s.nDim.toNat ≤ 33554431 → s.nDim.toNat ≤ s.sizes.qmem →
      exec .rnBuild s = .next { s with status := { s.status with code := .ok, rnValid := true } }) ∧
    (s.nDim.toNat = 0 ∨ 33554431 < s.nDim.toNat ∨ s.sizes.qmem < s.nDim.toNat →
      exec .rnBuild s = .next { s with status := { s.status with code := .errDim, rnValid := false } })

/-- RN.FWD's three failures in their order; each changes CODE and nothing else (41_rms_norm R115, 60_exceptions R151,
R152). -/
def Obligations.RnFwdFailsInOrder : Prop :=
  ∀ s : State,
    (s.status.rnValid = false → exec .rnFwd s = .next { s with status := { s.status with code := .errNoLayer } }) ∧
    (s.status.rnValid = true → s.xCols ≠ s.nDim →
      exec .rnFwd s = .next { s with status := { s.status with code := .shapeMismatch } }) ∧
    (s.status.rnValid = true → s.xCols = s.nDim →
      s.sizes.xmem < s.xRows.toNat * s.nDim.toNat ∨ s.sizes.ymem < s.xRows.toNat * s.nDim.toNat →
      exec .rnFwd s = .next { s with status := { s.status with code := .errDim } })

/-- RN.FWD computes the row function at row-major places for every row whose radicand is not negative, writes some
pattern to the other rows (R126, that the command goes on there is the model's choice, log 5), and leaves every other
element of YMEM and all other state but CODE as it was; the free value counter, the model's own (log 7), stays where every
row is defined (41_rms_norm R113, R125). -/
def Obligations.RnFwdMeetsContract : Prop :=
  ∀ s : State, s.status.rnValid = true → s.xCols = s.nDim → 1 ≤ s.nDim.toNat →
    s.xRows.toNat * s.nDim.toNat ≤ s.sizes.xmem → s.xRows.toNat * s.nDim.toNat ≤ s.sizes.ymem →
    ∃ (y : Mem 8) (n : Nat),
      exec .rnFwd s = .next { s with ymem := y, freeCount := n, status := { s.status with code := .ok } } ∧
      (∀ b i, b < s.xRows.toNat → i < s.nDim.toNat → 0 ≤ s.radicand b →
        ∃ p, y.read (b * s.nDim.toNat + i) = some p ∧
          p.toInt = if Nat.sqrt (s.radicand b).toNat = 0 then 0 else
            max (-128) (min 127 (Int.fdiv (Int.fdiv
              (Int.tdiv ((s.xmemAt (b * s.xCols.toNat + i)).toInt * 2 ^ 24) (Nat.sqrt (s.radicand b).toNat)
                * (s.qmemAt i).toInt) (2 ^ 12) * 64) (2 ^ 16)))) ∧
      (∀ k, k < s.xRows.toNat * s.nDim.toNat → ∃ p, y.read k = some p) ∧
      (∀ k, s.xRows.toNat * s.nDim.toNat ≤ k → y.read k = s.ymem.read k) ∧
      ((∀ b, b < s.xRows.toNat → 0 ≤ s.radicand b) → n = s.freeCount)

/-- A non-negative epsilon leaves no row undefined (41_rms_norm R126). -/
def Obligations.NonNegativeEpsilonSuffices : Prop :=
  ∀ s : State, 0 ≤ s.eps.toInt → (∀ b, 0 ≤ s.radicand b) ∧ s.rnDefined = true

/-- No intermediate of a row overflows 64 signed bits (41_rms_norm R130). -/
def Obligations.RmsIntermediatesFitInt64 : Prop :=
  ∀ (x : List Int) (eps : Int), 1 ≤ x.length → x.length ≤ 33554431 → (∀ v ∈ x, IsInt8 v) → IsInt64 eps →
    0 ≤ rmsSqQ24 eps x →
    (∀ v ∈ x, 0 ≤ v * v ∧ v * v ≤ 2 ^ 14) ∧
    (0 ≤ sumSq x ∧ sumSq x ≤ 2 ^ 14 * x.length) ∧ shl (sumSq x) 24 ≤ 2 ^ 63 - 2 ^ 38 ∧
    (0 ≤ meanSqQ24 x ∧ meanSqQ24 x ≤ 2 ^ 38) ∧ (-2 ^ 55 ≤ asr eps 8 ∧ asr eps 8 ≤ 2 ^ 55 - 1) ∧
    rmsSqQ24 eps x ≤ 2 ^ 55 + 2 ^ 38 - 1 ∧ isqrt (rmsSqQ24 eps x).toNat ≤ 2 ^ 28 - 1 ∧
    (∀ k : Nat, 1 ≤ k → (k : Int) ≤ rmsSqQ24 eps x → (k : Int) + rmsSqQ24 eps x / k ≤ rmsSqQ24 eps x + 1) ∧
    (1 ≤ isqrt (rmsSqQ24 eps x).toNat → ∀ v ∈ x, ∀ wq : Int, IsInt32 wq →
      (-2 ^ 31 ≤ shl v 24 ∧ shl v 24 ≤ 127 * 2 ^ 24) ∧
      (-2 ^ 31 ≤ tdiv (shl v 24) (isqrt (rmsSqQ24 eps x).toNat) ∧
        tdiv (shl v 24) (isqrt (rmsSqQ24 eps x).toNat) ≤ 127 * 2 ^ 24) ∧
      (-2 ^ 62 + 2 ^ 31 ≤ tdiv (shl v 24) (isqrt (rmsSqQ24 eps x).toNat) * wq ∧
        tdiv (shl v 24) (isqrt (rmsSqQ24 eps x).toNat) * wq ≤ 2 ^ 62) ∧
      |asr (tdiv (shl v 24) (isqrt (rmsSqQ24 eps x).toNat) * wq) 12| ≤ 2 ^ 50 ∧
      |asr (tdiv (shl v 24) (isqrt (rmsSqQ24 eps x).toNat) * wq) 12 * 64| ≤ 2 ^ 56 ∧
      |asr (asr (tdiv (shl v 24) (isqrt (rmsSqQ24 eps x).toNat) * wq) 12 * 64) 16| ≤ 2 ^ 40)

/-- When the bypass is taken, and what it does: with a non-negative epsilon, exactly when epsilon is below 256 and the
sum of squares is 0, or 1 in a row longer than 2^24 (41_rms_norm R120, R132). -/
def Obligations.BypassExactlyAtZeroRadicand : Prop :=
  ∀ (wq x : List Int) (eps : Int), 1 ≤ x.length → x.length ≤ 33554431 → 0 ≤ eps →
    (isqrt (rmsSqQ24 eps x).toNat = 0 ↔ meanSqQ24 x + asr eps 8 = 0) ∧
    (rmsSqQ24 eps x = 0 ↔ eps ≤ 255 ∧ (sumSq x = 0 ∨ sumSq x = 1 ∧ 16777217 ≤ x.length)) ∧
    (rmsSqQ24 eps x = 0 → rnRow wq eps x = some (List.replicate x.length 0))

/-- An all-zero row gives an all-zero row, for every weight vector and every non-negative epsilon (41_rms_norm R133). -/
def Obligations.AllZeroRowGivesZeros : Prop :=
  ∀ (wq : List Int) (eps : Int) (d : Nat), 0 ≤ eps → wq.length = d →
    rnRow wq eps (List.replicate d 0) = some (List.replicate d 0)

/-- A defined output row of RN.FWD depends on its activation row, the weights and epsilon only: not on its place in the
batch nor on the other rows (41_rms_norm R113, R128). -/
def Obligations.RnFwdRowsIndependent : Prop :=
  ∀ (s s' t t' : State) (b b' : Nat), exec .rnFwd s = .next t → exec .rnFwd s' = .next t' →
    t.status.code = .ok → t'.status.code = .ok → b < s.b → b' < s'.b → s.d = s'.d → s.eps = s'.eps →
    (∀ i, i < s.d → s.qmemAt i = s'.qmemAt i) → (∀ i, i < s.d → s.activation b i = s'.activation b' i) →
    0 ≤ s.radicand b → ∀ i, i < s.d → t.ymem.read (b * s.d + i) = t'.ymem.read (b' * s'.d + i)

/-- RN.FWD's code, and its output where epsilon is not negative, are a function of the state its footprint names
(20_memory R65). -/
def Obligations.RnFwdReadsOnlyFootprint : Prop :=
  ∀ s s' t t' : State, exec .rnFwd s = .next t → exec .rnFwd s' = .next t' → s.sizes = s'.sizes →
    s.status.rnValid = s'.status.rnValid → s.nDim = s'.nDim → s.eps = s'.eps → s.xRows = s'.xRows →
    s.xCols = s'.xCols → (∀ i, i < s.d → s.qmemAt i = s'.qmemAt i) →
    (∀ i, i < s.b * s.d → s.xmemAt i = s'.xmemAt i) →
    t.status.code = t'.status.code ∧
    (t.status.code = .ok → 0 ≤ s.epsilon → ∀ k, k < s.b * s.d → t.ymem.read k = t'.ymem.read k)

/-! ### The ISQRT unit -/

/-- ISQRT: the floor of the square root into RES for an operand that is not negative, a value the statement leaves open
for a negative one (log 6; the free value counter is the model's own field, log 7, and the statement leaves it open too);
CODE is OK and all else stays (42_integer_sqrt R140). -/
def Obligations.IsqrtCommandResult : Prop :=
  ∀ s : State,
    (0 ≤ s.opa.toInt →
      exec .isqrt s = .next { s with
        res := BitVec.ofNat 64 (Nat.sqrt s.opa.toNat), status := { s.status with code := .ok } } ∧
      Nat.sqrt s.opa.toNat ≤ 3037000499) ∧
    (s.opa.toInt < 0 → ∃ (v : DWord) (n : Nat),
      exec .isqrt s = .next { s with res := v, freeCount := n, status := { s.status with code := .ok } })

/-! ### All commands -/

/-- Every command ends: no state makes one stop (70_reset_and_hazards R180, 40_ternary_matmul R103). -/
def Obligations.EveryCommandEnds : Prop :=
  ∀ (i : Instr) (s : State), ∃ t, exec i s = .next t

/-- The codes each command can end with (60_exceptions R148). -/
def Obligations.CodesOfEachCommand : Prop :=
  ∀ (i : Instr) (s t : State), exec i s = .next t →
    t.status.code ∈ (match i with
      | .nop => [Code.ok]
      | .blBuild => [.ok, .invalidWeight, .errDim]
      | .blFwd => [.ok, .errNoLayer, .shapeMismatch, .errDim]
      | .rnBuild => [.ok, .errDim]
      | .rnFwd => [.ok, .errNoLayer, .shapeMismatch, .errDim]
      | .isqrt => [.ok]
      | .clamp8 => [.ok])

/-- A failing CMD write, of a command or of an illegal word, changes CODE, and for a BUILD clears its flag; nothing else
(60_exceptions R152). -/
def Obligations.FailureChangesOnlyCode : Prop :=
  ∀ (w : Word) (s t : State), step (s.given (.regWrite 0x00 ⟨32, w⟩)) = .next t → t.status.code ≠ .ok →
    t = { s with status :=
      { code := t.status.code
        blValid := if w = encode .blBuild then false else s.status.blValid
        rnValid := if w = encode .rnBuild then false else s.status.rnValid } }

/-- In states that meet the machine's invariant, a failing BUILD finds its flag already clear, so that it changes CODE
and nothing else: there is no layer after it and the staged parameters stay (60_exceptions R153). -/
def Obligations.FailingBuildLeavesNoLayer : Prop :=
  ∀ s t : State, s.Inv →
    (exec .blBuild s = .next t → t.status.code ≠ .ok →
      s.status.blValid = false ∧ t = { s with status := { s.status with code := t.status.code } }) ∧
    (exec .rnBuild s = .next t → t.status.code ≠ .ok →
      s.status.rnValid = false ∧ t = { s with status := { s.status with code := t.status.code } })

/-- No command reads CODE: what a command does is the same after any earlier result (10_state R35, 60_exceptions R155). -/
def Obligations.EarlierCodeDoesNotMatter : Prop :=
  ∀ (i : Instr) (s : State) (k : Code), exec i { s with status := { s.status with code := k } } = exec i s

/-- A forward command writes YMEM and CODE only (10_state R42; the free value counter is the model's, log 7), and where
it drew no free value, running it again changes nothing. -/
def Obligations.ForwardWritesOnlyOutput : Prop :=
  ∀ (i : Instr) (s t : State), i = .blFwd ∨ i = .rnFwd → exec i s = .next t →
    t = { s with ymem := t.ymem, freeCount := t.freeCount, status := { s.status with code := t.status.code } } ∧
    (s.ymem.wf → t.freeCount = s.freeCount → exec i t = .next t)

/-- No command writes a parameter, a descriptor, the operand, an input memory or the host's side (20_memory R65). -/
def Obligations.CommandsKeepInputs : Prop :=
  ∀ (i : Instr) (s t : State), exec i s = .next t →
    t.sizes = s.sizes ∧ t.wRows = s.wRows ∧ t.wCols = s.wCols ∧ t.shift = s.shift ∧ t.nDim = s.nDim ∧
    t.eps = s.eps ∧ t.xRows = s.xRows ∧ t.xCols = s.xCols ∧ t.opa = s.opa ∧ t.wmem = s.wmem ∧ t.xmem = s.xmem ∧
    t.qmem = s.qmem ∧ t.inputs = s.inputs ∧ t.returned = s.returned ∧ t.epoch = s.epoch ∧
    (i ≠ .blFwd → i ≠ .rnFwd → t.ymem = s.ymem)

/-- ISQRT and CLAMP8 use only OPA and RES; no other command writes RES (60_exceptions R164, 10_state R34). -/
def Obligations.OnlyDiagnosticsWriteRes : Prop :=
  ∀ (i : Instr) (s t : State), exec i s = .next t →
    (i = .isqrt ∨ i = .clamp8 →
      t = { s with res := t.res, freeCount := t.freeCount, status := { s.status with code := .ok } }) ∧
    (i ≠ .isqrt → i ≠ .clamp8 → t.res = s.res)

/-- The units are independent: the TMM commands neither read nor write the RMSN unit's state, nor the reverse
(00_scope R2). -/
def Obligations.UnitsIndependent : Prop :=
  ∀ (i : Instr) (s t : State), exec i s = .next t →
    (i = .blBuild ∨ i = .blFwd → ∀ (n : Word) (e : DWord) (q : Mem 32) (v : Bool),
      exec i { s with nDim := n, eps := e, qmem := q, status := { s.status with rnValid := v } } =
        .next { t with nDim := n, eps := e, qmem := q, status := { t.status with rnValid := v } }) ∧
    (i = .rnBuild ∨ i = .rnFwd → ∀ (r c k : Word) (m : Mem 8) (v : Bool),
      exec i { s with wRows := r, wCols := c, shift := k, wmem := m, status := { s.status with blValid := v } } =
        .next { t with wRows := r, wCols := c, shift := k, wmem := m, status := { t.status with blValid := v } })

/-! ### The host port -/

/-- What a RegWrite does, register by register (20_memory R55). -/
def Obligations.RegisterWrites : Prop :=
  ∀ (s : State) (v : Word) (d : DWord),
    step (s.given (.regWrite 0x00 ⟨32, v⟩)) = (match decode v with
      | .ok i => exec i s
      | .error _ => .next { s with status := { s.status with code := .errBadCmd } }) ∧
    step (s.given (.regWrite 0x01 ⟨32, v⟩)) = .next s ∧
    step (s.given (.regWrite 0x02 ⟨32, v⟩)) =
      .next { s with wRows := v, status := { s.status with blValid := false } } ∧
    step (s.given (.regWrite 0x03 ⟨32, v⟩)) =
      .next { s with wCols := v, status := { s.status with blValid := false } } ∧
    step (s.given (.regWrite 0x04 ⟨32, v⟩)) =
      .next { s with shift := v, status := { s.status with blValid := false } } ∧
    step (s.given (.regWrite 0x05 ⟨32, v⟩)) =
      .next { s with nDim := v, status := { s.status with rnValid := false } } ∧
    step (s.given (.regWrite 0x06 ⟨64, d⟩)) =
      .next { s with eps := d, status := { s.status with rnValid := false } } ∧
    step (s.given (.regWrite 0x07 ⟨32, v⟩)) = .next { s with xRows := v } ∧
    step (s.given (.regWrite 0x08 ⟨32, v⟩)) = .next { s with xCols := v } ∧
    step (s.given (.regWrite 0x09 ⟨64, d⟩)) = .next { s with opa := d } ∧
    step (s.given (.regWrite 0x0A ⟨64, d⟩)) = .next s

/-- What a RegRead returns, register by register; the engine does not change (20_memory R56). -/
def Obligations.RegisterReads : Prop :=
  ∀ s : State,
    step (s.given (.regRead 0x00)) = .next { s with returned := s.returned ++ [⟨32, 0⟩] } ∧
    step (s.given (.regRead 0x01)) = .next { s with returned := s.returned ++ [⟨32, s.status.word⟩] } ∧
    step (s.given (.regRead 0x02)) = .next { s with returned := s.returned ++ [⟨32, s.wRows⟩] } ∧
    step (s.given (.regRead 0x03)) = .next { s with returned := s.returned ++ [⟨32, s.wCols⟩] } ∧
    step (s.given (.regRead 0x04)) = .next { s with returned := s.returned ++ [⟨32, s.shift⟩] } ∧
    step (s.given (.regRead 0x05)) = .next { s with returned := s.returned ++ [⟨32, s.nDim⟩] } ∧
    step (s.given (.regRead 0x06)) = .next { s with returned := s.returned ++ [⟨64, s.eps⟩] } ∧
    step (s.given (.regRead 0x07)) = .next { s with returned := s.returned ++ [⟨32, s.xRows⟩] } ∧
    step (s.given (.regRead 0x08)) = .next { s with returned := s.returned ++ [⟨32, s.xCols⟩] } ∧
    step (s.given (.regRead 0x09)) = .next { s with returned := s.returned ++ [⟨64, s.opa⟩] } ∧
    step (s.given (.regRead 0x0A)) = .next { s with returned := s.returned ++ [⟨64, s.res⟩] }

/-- The fields of the STATUS word and the numbers of the codes (10_state R28, 60_exceptions R148). -/
def Obligations.StatusWordFields : Prop :=
  (∀ st : Status, st.word.extractLsb' 0 4 = st.code.number ∧ st.word.extractLsb' 4 4 = 0 ∧
    st.word.getLsbD 8 = st.blValid ∧ st.word.getLsbD 9 = st.rnValid ∧ st.word.extractLsb' 10 22 = 0) ∧
  Code.number .ok = 0 ∧ Code.number .invalidWeight = 1 ∧ Code.number .shapeMismatch = 2 ∧
  Code.number .errNoLayer = 3 ∧ Code.number .errDim = 4 ∧ Code.number .errBadCmd = 5

/-- What a MemWrite inside the map does: the element takes the pattern, every other element of the space stays, WMEM and
QMEM clear their unit's flag, and nothing else changes (20_memory R57). -/
def Obligations.ElementWrites : Prop :=
  ∀ (s : State) (i : Nat) (p : Byte) (q : Word),
    (i < s.sizes.wmem → ∃ m, step (s.given (.memWrite 0 i ⟨8, p⟩)) =
        .next { s with wmem := m, status := { s.status with blValid := false } } ∧
      m.read i = some p ∧ ∀ k, k ≠ i → m.read k = s.wmem.read k) ∧
    (i < s.sizes.xmem → ∃ m, step (s.given (.memWrite 1 i ⟨8, p⟩)) = .next { s with xmem := m } ∧
      m.read i = some p ∧ ∀ k, k ≠ i → m.read k = s.xmem.read k) ∧
    (i < s.sizes.ymem → ∃ m, step (s.given (.memWrite 2 i ⟨8, p⟩)) = .next { s with ymem := m } ∧
      m.read i = some p ∧ ∀ k, k ≠ i → m.read k = s.ymem.read k) ∧
    (i < s.sizes.qmem → ∃ m, step (s.given (.memWrite 3 i ⟨32, q⟩)) =
        .next { s with qmem := m, status := { s.status with rnValid := false } } ∧
      m.read i = some q ∧ ∀ k, k ≠ i → m.read k = s.qmem.read k)

/-- What a MemRead inside the map returns: the element, where it was written; the engine does not change
(20_memory R58). -/
def Obligations.ElementReads : Prop :=
  ∀ (s : State) (i : Nat) (p : Byte) (q : Word),
    (i < s.sizes.wmem → s.wmem.read i = some p →
      step (s.given (.memRead 0 i 8)) = .next { s with returned := s.returned ++ [⟨8, p⟩] }) ∧
    (i < s.sizes.xmem → s.xmem.read i = some p →
      step (s.given (.memRead 1 i 8)) = .next { s with returned := s.returned ++ [⟨8, p⟩] }) ∧
    (i < s.sizes.ymem → s.ymem.read i = some p →
      step (s.given (.memRead 2 i 8)) = .next { s with returned := s.returned ++ [⟨8, p⟩] }) ∧
    (i < s.sizes.qmem → s.qmem.read i = some q →
      step (s.given (.memRead 3 i 32)) = .next { s with returned := s.returned ++ [⟨32, q⟩] })

/-- A MemRead of an element that nothing has written goes on and returns some pattern of the element's width; the model's
choice among the two readings of U1 (log 4). -/
def Obligations.UnwrittenReadGoesOn : Prop :=
  ∀ (s : State) (space : Space) (i : Nat), i < s.sizes.ofSpace space →
    ∃ v : BitVec space.width,
      step (s.given (.memRead space.id i space.width)) =
        .next { s with returned := s.returned ++ [⟨space.width, v⟩] }

/-- A read returns the latest earlier write to the same element, whatever the space and the pattern (20_memory R66). -/
def Obligations.ReadAfterWrite : Prop :=
  ∀ (s t : State) (space : Space) (i : Nat) (p : BitVec space.width),
    step (s.given (.memWrite space.id i ⟨space.width, p⟩)) = .next t →
    step (t.given (.memRead space.id i space.width)) =
      .next { t with returned := t.returned ++ [⟨space.width, p⟩] }

/-- A transaction outside the map has no next state: it stops by name (20_memory R64; which stop is the model's choice,
log 8). -/
def Obligations.OutsideTheMapStops : Prop :=
  ∀ (s : State) (n sp i w : Nat) (p : Pattern) (space : Space) (r : Reg),
    (10 < n → step (s.given (.regWrite n p)) = .fault .unmappedRegister ∧
      step (s.given (.regRead n)) = .fault .unmappedRegister) ∧
    (3 < sp → step (s.given (.memWrite sp i p)) = .fault .unmappedSpace ∧
      step (s.given (.memRead sp i w)) = .fault .unmappedSpace) ∧
    (s.sizes.ofSpace space ≤ i → step (s.given (.memWrite space.id i p)) = .fault .indexOutOfRange ∧
      step (s.given (.memRead space.id i w)) = .fault .indexOutOfRange) ∧
    (p.width ≠ r.width → step (s.given (.regWrite r.number p)) = .refused .wrongWidth) ∧
    (i < s.sizes.ofSpace space → p.width ≠ space.width →
      step (s.given (.memWrite space.id i p)) = .refused .wrongWidth)

/-- The pseudo-instruction `ldgrid` writes the element of row p and column j of its grid at index p*Q+j, and writes
nothing else (30_encoding R85, 00_scope R12). -/
def Obligations.LdgridIsRowMajor : Prop :=
  ∀ (sp : Space) (g : List (List Int)) (q : Nat) (ts : List Transaction), gridCols g = some q →
    scriptLdgrid sp g = some ts → ts.length = g.length * q ∧
    ∀ (p j : Nat) (row : List Int) (v : Int), g[p]? = some row → row[j]? = some v →
      ts[p * q + j]? = some (scriptWm sp (p * q + j) v)

/-! ### The whole machine -/

/-- The invariant of the machine is kept by every step, from every state that has it: the sizes stay at least 1, the
memories stay in canonical form inside their sizes, and a valid flag at 1 stands for a layer that fits and whose weights
are all legal (10_state R31, R32, R37). -/
def Obligations.StepKeepsInvariant : Prop :=
  ∀ s t : State, s.Inv → step s = .next t → t.Inv

/-- The state after reset has the invariant. -/
def Obligations.ResetHasInvariant : Prop := State.reset.Inv

/-- From every state whose host stays inside the map, every number of steps goes on: the engine never stops by itself
(20_memory R64, 40_ternary_matmul R103; that it goes on in place when the host has nothing more is the model's choice,
log 9). -/
def Obligations.HostInsideTheMapNeverStops : Prop :=
  ∀ (s : State) (k : Nat), s.HostWf → ∃ t, Host.Core.run Sys2Proof.core k s = .next t ∧ t.HostWf

/-- No step changes the capacities, which are configuration (00_scope R9, R23); that State holds them is the model's
choice (log 3). -/
def Obligations.SizesNeverChange : Prop :=
  ∀ s t : State, step s = .next t → t.sizes = s.sizes

/-- What clears a valid flag: a host write to a parameter of that unit, a failing BUILD of that unit, or reset; nothing
else (10_state R32, R35). -/
def Obligations.FlagClearedOnlyByItsUnit : Prop :=
  ∀ (s t : State) (e : Event) (rest : List Event), s.inputs = e :: rest → step s = .next t →
    (s.status.blValid = true → t.status.blValid = false →
      e = .reset ∨ (e = commandEvent (encode .blBuild) ∧ t.status.code ≠ .ok) ∨
      (∃ n v, (n = 2 ∨ n = 3 ∨ n = 4) ∧ e = .transaction (.regWrite n v)) ∨
      (∃ i p, e = .transaction (.memWrite 0 i p))) ∧
    (s.status.rnValid = true → t.status.rnValid = false →
      e = .reset ∨ (e = commandEvent (encode .rnBuild) ∧ t.status.code ≠ .ok) ∨
      (∃ n v, (n = 5 ∨ n = 6) ∧ e = .transaction (.regWrite n v)) ∨
      (∃ i p, e = .transaction (.memWrite 3 i p)))

/-- What sets a valid flag: a BUILD of that unit that ends OK; nothing else (10_state R35). -/
def Obligations.FlagSetOnlyByItsBuild : Prop :=
  ∀ s t : State, step s = .next t →
    (s.status.blValid = false → t.status.blValid = true →
      ∃ rest, s.inputs = commandEvent (encode .blBuild) :: rest ∧ t.status.code = .ok) ∧
    (s.status.rnValid = false → t.status.rnValid = true →
      ∃ rest, s.inputs = commandEvent (encode .rnBuild) :: rest ∧ t.status.code = .ok)

/-- While a flag stays 1 its layer is immutable (10_state R31, R32). -/
def Obligations.LayerImmutableWhileValid : Prop :=
  ∀ s t : State, step s = .next t →
    (s.status.blValid = true → t.status.blValid = true →
      t.wRows = s.wRows ∧ t.wCols = s.wCols ∧ t.shift = s.shift ∧ t.wmem = s.wmem) ∧
    (s.status.rnValid = true → t.status.rnValid = true →
      t.nDim = s.nDim ∧ t.eps = s.eps ∧ t.qmem = s.qmem)

/-- The state after reset: every register 0, CODE OK, no layer, no element of any memory written (10_state R44). -/
def Obligations.ResetLeavesRegistersZero : Prop :=
  State.reset.status.word = 0 ∧ State.reset.wRows = 0 ∧ State.reset.wCols = 0 ∧ State.reset.shift = 0 ∧
  State.reset.nDim = 0 ∧ State.reset.eps = 0 ∧ State.reset.xRows = 0 ∧ State.reset.xCols = 0 ∧
  State.reset.opa = 0 ∧ State.reset.res = 0 ∧
  ∀ i, State.reset.wmem.read i = none ∧ State.reset.xmem.read i = none ∧ State.reset.ymem.read i = none ∧
    State.reset.qmem.read i = none

/-- The reset event between transactions leaves the state of R44; sizes and the host's side stay
(70_reset_and_hazards R168 to R170; that the event stands among the inputs is the model's choice, log 10). -/
def Obligations.ResetEventGivesResetState : Prop :=
  ∀ (s : State) (rest : List Event), s.inputs = .reset :: rest →
    ∃ t, step s = .next t ∧ t.status.word = 0 ∧ t.wRows = 0 ∧ t.wCols = 0 ∧ t.shift = 0 ∧ t.nDim = 0 ∧ t.eps = 0 ∧
      t.xRows = 0 ∧ t.xCols = 0 ∧ t.opa = 0 ∧ t.res = 0 ∧
      (∀ i, t.wmem.read i = none ∧ t.xmem.read i = none ∧ t.ymem.read i = none ∧ t.qmem.read i = none) ∧
      t.sizes = s.sizes ∧ t.inputs = rest ∧ t.returned = s.returned

/-- With nothing to come from the host the engine does nothing (70_reset_and_hazards R169; that the step then goes on in
place is the model's choice, log 9). -/
def Obligations.EngineIdlesWithoutHost : Prop :=
  ∀ s : State, s.inputs = [] → step s = .next s
end

