-- ==== Sys2Proof/Laws/Arith.lean ====
section
/-! SUPPORT. The arithmetic primitives and the folds of the two units in the terms of the library: floor division, the
clamp as a minimum and a maximum, sums over a range. -/

namespace Sys2Proof.Machine

theorem asr_eq_div (v : Int) (k : Nat) : asr v k = v / 2 ^ k := by
  rw [asr, Int.shiftRight_eq_div_pow]; norm_cast

theorem fdiv_two_pow (v : Int) (k : Nat) : Int.fdiv v (2 ^ k) = asr v k := by
  rw [asr_eq_div, Int.fdiv_eq_ediv_of_nonneg _ (by positivity)]

theorem shl_eq_mul (v : Int) (k : Nat) : shl v k = v * 2 ^ k := rfl

theorem clampInt8_eq (v : Int) : clampInt8 v = max (-128) (min 127 v) := by
  simp only [clampInt8, Config.elemMin, Config.elemMax]
  split_ifs <;> omega

theorem clampInt8_range (v : Int) : -128 ≤ clampInt8 v ∧ clampInt8 v ≤ 127 := by
  rw [clampInt8_eq]; omega

/-- A value in int8 range is stored in an element without loss. -/
theorem toInt_enc8 {v : Int} (h : -128 ≤ v ∧ v ≤ 127) : (enc 8 v).toInt = v := by
  simp only [enc, BitVec.toInt_ofInt, Int.bmod_def]
  omega

theorem sext8_range (p : Byte) : -128 ≤ sext p ∧ sext p ≤ 127 := by
  have h1 := BitVec.le_toInt p
  have h2 := BitVec.toInt_lt (x := p)
  simp only [sext]
  omega

theorem accStep_eq (acc w x : Int) : accStep acc w x = acc + contribution w x := by
  simp only [accStep, contribution]
  split
  · rfl
  · split <;> omega

/-- A fold that adds is a sum over the range. -/
theorem foldl_add_range (f : Nat → Int) (n : Nat) (a : Int) :
    (List.range n).foldl (fun acc i => acc + f i) a = a + ∑ i ∈ Finset.range n, f i := by
  induction n with
  | zero => simp
  | succ n ih => rw [List.range_succ, List.foldl_append, ih, Finset.sum_range_succ]; simp [add_assoc]

theorem dotProduct_eq_sum (s : State) (b r : Nat) :
    s.dotProduct b r = ∑ c ∈ Finset.range s.c, contribution (s.weight r c) (s.activation b c) := by
  simp only [State.dotProduct, accStep_eq, foldl_add_range, zero_add]

theorem foldl_sq (x : List Int) (a : Int) :
    x.foldl (fun acc v => acc + v * v) a = a + (x.map fun v => v * v).sum := by
  induction x generalizing a with
  | nil => simp
  | cons v x ih => simp [ih, add_assoc]

theorem sumSq_eq_sum (x : List Int) : sumSq x = (x.map fun v => v * v).sum := by
  simp [sumSq, foldl_sq]

theorem sumSq_nonneg (x : List Int) : 0 ≤ sumSq x := by
  rw [sumSq_eq_sum]
  exact List.sum_nonneg (by simp only [List.mem_map, forall_exists_index, and_imp]; rintro _ v - rfl; exact mul_self_nonneg v)

theorem legalWeight_iff (p : Byte) : legalWeight p = true ↔ p = 0xFF#8 ∨ p = 0x00#8 ∨ p = 0x01#8 := by
  revert p; decide

end Sys2Proof.Machine
end

