-- ==== Sys2Proof/Laws/Grid.lean ====
section
/-! SUPPORT. A list laid out row by row, every row of the same length: its length and the place of each element
(00_scope R12). -/

namespace Sys2Proof.Machine

variable {α : Type}

theorem grid_length (row : Nat → List α) (q n : Nat) (h : ∀ b, b < n → (row b).length = q) :
    ((List.range n).flatMap row).length = n * q := by
  induction n with
  | zero => simp
  | succ n ih =>
    rw [List.range_succ, List.flatMap_append, List.length_append, ih fun b hb => h b (by omega)]
    simp [h n (by omega), Nat.succ_mul]

/-- Element `i` of row `b` stands at index `b * q + i`. -/
theorem grid_getElem? (row : Nat → List α) (q n : Nat) (h : ∀ b, b < n → (row b).length = q) {b i : Nat}
    (hb : b < n) (hi : i < q) : ((List.range n).flatMap row)[b * q + i]? = (row b)[i]? := by
  induction n with
  | zero => omega
  | succ n ih =>
    have hl := grid_length row q n fun b hb => h b (by omega)
    rw [List.range_succ, List.flatMap_append]
    by_cases hbn : b < n
    · have hlt : b * q + i < n * q := by
        have : (b + 1) * q ≤ n * q := Nat.mul_le_mul_right q hbn
        rw [Nat.succ_mul] at this
        omega
      rw [List.getElem?_append_left (by omega), ih (fun b hb => h b (by omega)) hbn]
    · obtain rfl : b = n := by omega
      rw [List.getElem?_append_right (by omega), hl, Nat.add_sub_cancel_left]
      simp

/-- Two indices of a grid that lie in it are a row and a place in the row. -/
theorem grid_index_split {k n q : Nat} (h : k < n * q) : k / q < n ∧ k % q < q ∧ k / q * q + k % q = k := by
  have hq : 0 < q := Nat.pos_of_mul_pos_left (Nat.zero_lt_of_lt h)
  exact ⟨(Nat.div_lt_iff_lt_mul hq).2 h, Nat.mod_lt _ hq, Nat.div_add_mod' k q⟩

end Sys2Proof.Machine
end

