-- ==== Sys2Proof/Laws/Mem.lean ====
section
/-! SUPPORT. The laws of the element memories: what a read after a write gives, that every write keeps the canonical
form and the bound on the indices, and that canonical memories with equal reads are equal. -/

namespace Sys2Proof.Machine

variable {w : Nat}

@[simp] theorem mem_read_nil (i : Nat) : Mem.read ([] : Mem w) i = none := rfl

theorem mem_read_cons (j : Nat) (u : BitVec w) (m : Mem w) (i : Nat) :
    Mem.read ((j, u) :: m) i = if i = j then some u else m.read i := rfl

/-- Once everything a write can do to a read: the written element takes the value, every other stays. -/
theorem mem_read_write (m : Mem w) (i : Nat) (v : BitVec w) (k : Nat) :
    (m.write i v).read k = if k = i then some v else m.read k := by
  induction m with
  | nil => simp [Mem.write, Mem.read]
  | cons c m ih =>
    obtain ⟨j, u⟩ := c
    unfold Mem.write
    split
    · simp only [mem_read_cons]
    · split
      · subst_vars
        simp only [mem_read_cons]
        split <;> rfl
      · simp only [mem_read_cons, ih]
        by_cases hk : k = j
        · subst hk
          simp [show k ≠ i by omega]
        · simp [hk]

@[simp] theorem mem_read_write_same (m : Mem w) (i : Nat) (v : BitVec w) : (m.write i v).read i = some v := by
  simp [mem_read_write]

theorem mem_read_write_other (m : Mem w) {i k : Nat} (v : BitVec w) (h : k ≠ i) :
    (m.write i v).read k = m.read k := by
  simp [mem_read_write, h]

theorem mem_forall_write {P : Nat × BitVec w → Prop} (m : Mem w) (i : Nat) (v : BitVec w)
    (hm : ∀ c ∈ m, P c) (hv : P (i, v)) : ∀ c ∈ m.write i v, P c := by
  induction m with
  | nil => simpa [Mem.write] using hv
  | cons c m ih =>
    obtain ⟨j, u⟩ := c
    simp only [List.forall_mem_cons] at hm
    unfold Mem.write
    split
    · simp only [List.forall_mem_cons]
      exact ⟨hv, hm.1, hm.2⟩
    · split
      · simp only [List.forall_mem_cons]
        exact ⟨hv, hm.2⟩
      · simp only [List.forall_mem_cons]
        exact ⟨hm.1, ih hm.2⟩

/-- A write keeps the canonical form. -/
theorem mem_write_wf (m : Mem w) (i : Nat) (v : BitVec w) (h : m.wf) : (m.write i v).wf := by
  induction m with
  | nil => simp [Mem.write, Mem.wf]
  | cons c m ih =>
    obtain ⟨j, u⟩ := c
    simp only [Mem.wf, List.pairwise_cons] at h
    obtain ⟨hj, hm⟩ := h
    unfold Mem.write
    split
    · rename_i hlt
      simp only [Mem.wf, List.pairwise_cons, List.forall_mem_cons]
      exact ⟨⟨hlt, fun c hc => lt_trans hlt (hj c hc)⟩, hj, hm⟩
    · split
      · subst_vars
        simp only [Mem.wf, List.pairwise_cons]
        exact ⟨hj, hm⟩
      · simp only [Mem.wf, List.pairwise_cons]
        exact ⟨mem_forall_write m i v hj (by simp; omega), ih hm⟩

/-- A write below the size keeps every index below the size. -/
theorem mem_write_within (m : Mem w) (i : Nat) (v : BitVec w) {size : Nat} (hi : i < size) (h : m.within size) :
    (m.write i v).within size :=
  mem_forall_write m i v h hi

/-- Once everything a store of a list can do to a read. -/
theorem mem_read_writeFrom (vs : List (BitVec w)) (m : Mem w) (base k : Nat) :
    (m.writeFrom base vs).read k =
      if base ≤ k ∧ k < base + vs.length then vs[k - base]? else m.read k := by
  induction vs generalizing m base with
  | nil => simp [Mem.writeFrom]
  | cons v vs ih =>
    simp only [Mem.writeFrom, ih, List.length_cons, mem_read_write]
    by_cases hk : k = base
    · subst hk; simp
    · by_cases h1 : base + 1 ≤ k ∧ k < base + 1 + vs.length
      · rw [if_pos h1, if_pos (by omega), show k - base = (k - (base + 1)) + 1 by omega, List.getElem?_cons_succ]
      · rw [if_neg h1, if_neg hk, if_neg (by omega)]

/-- A store of a list keeps the canonical form. -/
theorem mem_writeFrom_wf (vs : List (BitVec w)) (m : Mem w) (base : Nat) (h : m.wf) : (m.writeFrom base vs).wf := by
  induction vs generalizing m base with
  | nil => exact h
  | cons v vs ih => exact ih _ _ (mem_write_wf m base v h)

/-- A store of a list that ends below the size keeps every index below the size. -/
theorem mem_writeFrom_within (vs : List (BitVec w)) (m : Mem w) (base : Nat) {size : Nat}
    (hs : base + vs.length ≤ size) (h : m.within size) : (m.writeFrom base vs).within size := by
  induction vs generalizing m base with
  | nil => exact h
  | cons v vs ih =>
    simp only [List.length_cons] at hs
    exact ih _ _ (by omega) (mem_write_within m base v (by omega) h)

/-- An index at or below a bound that every listed index exceeds is not listed. -/
theorem mem_read_of_le (m : Mem w) {i j : Nat} (hm : ∀ c ∈ m, j < c.1) (hi : i ≤ j) : m.read i = none := by
  induction m with
  | nil => rfl
  | cons c m ih =>
    obtain ⟨k, x⟩ := c
    simp only [List.forall_mem_cons] at hm
    rw [mem_read_cons, if_neg (by omega), ih hm.2]

/-- Writing what is already there changes nothing of a canonical memory. -/
theorem mem_write_of_read (m : Mem w) (i : Nat) (v : BitVec w) (h : m.wf) (hr : m.read i = some v) :
    m.write i v = m := by
  induction m with
  | nil => simp at hr
  | cons c m ih =>
    obtain ⟨j, u⟩ := c
    simp only [Mem.wf, List.pairwise_cons] at h
    rw [mem_read_cons] at hr
    unfold Mem.write
    by_cases hij : i = j
    · subst hij
      simp only [if_true, Option.some.injEq] at hr
      simp [hr]
    · rw [if_neg hij] at hr
      have hlt : ¬ i < j := fun hlt => by simp [mem_read_of_le m h.1 hlt.le] at hr
      rw [if_neg hlt, if_neg hij, ih h.2 hr]

/-- Storing a list over elements that already hold it changes nothing of a canonical memory. -/
theorem mem_writeFrom_of_read (vs : List (BitVec w)) (m : Mem w) (base : Nat) (h : m.wf)
    (hr : ∀ i, i < vs.length → m.read (base + i) = vs[i]?) : m.writeFrom base vs = m := by
  induction vs generalizing base with
  | nil => rfl
  | cons v vs ih =>
    have h0 : m.read base = some v := by simpa using hr 0 (by simp)
    rw [Mem.writeFrom, mem_write_of_read m base v h h0]
    refine ih (base + 1) fun i hi => ?_
    have := hr (i + 1) (by simpa using hi)
    rw [List.getElem?_cons_succ] at this
    rw [← this]
    congr 1
    omega

/-- Storing the same list twice is storing it once. -/
theorem mem_writeFrom_writeFrom (vs : List (BitVec w)) (m : Mem w) (base : Nat) (h : m.wf) :
    (m.writeFrom base vs).writeFrom base vs = m.writeFrom base vs :=
  mem_writeFrom_of_read vs _ base (mem_writeFrom_wf vs m base h) fun i hi => by
    rw [mem_read_writeFrom, if_pos (by omega), Nat.add_sub_cancel_left]

end Sys2Proof.Machine
end

