-- ==== Sys2Proof/Laws/State.lean ====
section
/-! SUPPORT. What each update of the state leaves in each field: one lemma per field and update, all true by definition. -/

namespace Sys2Proof.Machine

@[simp] theorem raise_eq_setCode (s : State) (k : Code) : s.raise k = s.setCode k := rfl
@[simp] theorem finish_eq_setCode (s : State) : s.finish = s.setCode .ok := rfl
@[simp] theorem invalidateBl_eq_setBlValid (s : State) : s.invalidateBl = s.setBlValid false := rfl
@[simp] theorem invalidateRn_eq_setRnValid (s : State) : s.invalidateRn = s.setRnValid false := rfl


/-! ### setCode -/

@[simp] theorem setCode_setCode (s : State) (k k' : Code) : (s.setCode k).setCode k' = s.setCode k' := rfl
@[simp] theorem setCode_code (s : State) (k : Code) : (s.setCode k).status.code = k := rfl
@[simp] theorem setCode_blValid (s : State) (k : Code) : (s.setCode k).status.blValid = s.status.blValid := rfl
@[simp] theorem setCode_rnValid (s : State) (k : Code) : (s.setCode k).status.rnValid = s.status.rnValid := rfl
@[simp] theorem setCode_sizes (s : State) (k : Code) : (s.setCode k).sizes = s.sizes := rfl
@[simp] theorem setCode_wRows (s : State) (k : Code) : (s.setCode k).wRows = s.wRows := rfl
@[simp] theorem setCode_wCols (s : State) (k : Code) : (s.setCode k).wCols = s.wCols := rfl
@[simp] theorem setCode_shift (s : State) (k : Code) : (s.setCode k).shift = s.shift := rfl
@[simp] theorem setCode_nDim (s : State) (k : Code) : (s.setCode k).nDim = s.nDim := rfl
@[simp] theorem setCode_eps (s : State) (k : Code) : (s.setCode k).eps = s.eps := rfl
@[simp] theorem setCode_xRows (s : State) (k : Code) : (s.setCode k).xRows = s.xRows := rfl
@[simp] theorem setCode_xCols (s : State) (k : Code) : (s.setCode k).xCols = s.xCols := rfl
@[simp] theorem setCode_opa (s : State) (k : Code) : (s.setCode k).opa = s.opa := rfl
@[simp] theorem setCode_res (s : State) (k : Code) : (s.setCode k).res = s.res := rfl
@[simp] theorem setCode_wmem (s : State) (k : Code) : (s.setCode k).wmem = s.wmem := rfl
@[simp] theorem setCode_xmem (s : State) (k : Code) : (s.setCode k).xmem = s.xmem := rfl
@[simp] theorem setCode_ymem (s : State) (k : Code) : (s.setCode k).ymem = s.ymem := rfl
@[simp] theorem setCode_qmem (s : State) (k : Code) : (s.setCode k).qmem = s.qmem := rfl
@[simp] theorem setCode_inputs (s : State) (k : Code) : (s.setCode k).inputs = s.inputs := rfl
@[simp] theorem setCode_returned (s : State) (k : Code) : (s.setCode k).returned = s.returned := rfl
@[simp] theorem setCode_freeCount (s : State) (k : Code) : (s.setCode k).freeCount = s.freeCount := rfl
@[simp] theorem setCode_epoch (s : State) (k : Code) : (s.setCode k).epoch = s.epoch := rfl
@[simp] theorem setCode_r (s : State) (k : Code) : (s.setCode k).r = s.r := rfl
@[simp] theorem setCode_c (s : State) (k : Code) : (s.setCode k).c = s.c := rfl
@[simp] theorem setCode_d (s : State) (k : Code) : (s.setCode k).d = s.d := rfl
@[simp] theorem setCode_b (s : State) (k : Code) : (s.setCode k).b = s.b := rfl
@[simp] theorem setCode_xc (s : State) (k : Code) : (s.setCode k).xc = s.xc := rfl
@[simp] theorem setCode_shiftAmount (s : State) (k : Code) : (s.setCode k).shiftAmount = s.shiftAmount := rfl
@[simp] theorem setCode_epsilon (s : State) (k : Code) : (s.setCode k).epsilon = s.epsilon := rfl
@[simp] theorem setCode_operand (s : State) (k : Code) : (s.setCode k).operand = s.operand := rfl
@[simp] theorem setCode_wmemAt (s : State) (k : Code) : (s.setCode k).wmemAt = s.wmemAt := rfl
@[simp] theorem setCode_xmemAt (s : State) (k : Code) : (s.setCode k).xmemAt = s.xmemAt := rfl
@[simp] theorem setCode_ymemAt (s : State) (k : Code) : (s.setCode k).ymemAt = s.ymemAt := rfl
@[simp] theorem setCode_qmemAt (s : State) (k : Code) : (s.setCode k).qmemAt = s.qmemAt := rfl
@[simp] theorem setCode_channelWeight (s : State) (k : Code) : (s.setCode k).channelWeight = s.channelWeight := rfl
@[simp] theorem setCode_weight (s : State) (k : Code) : (s.setCode k).weight = s.weight := rfl
@[simp] theorem setCode_activation (s : State) (k : Code) : (s.setCode k).activation = s.activation := rfl
@[simp] theorem setCode_activationRow (s : State) (k : Code) : (s.setCode k).activationRow = s.activationRow := rfl
@[simp] theorem setCode_channelWeights (s : State) (k : Code) : (s.setCode k).channelWeights = s.channelWeights := rfl

/-! ### setBlValid -/

@[simp] theorem setBlValid_code (s : State) (f : Bool) : (s.setBlValid f).status.code = s.status.code := rfl
@[simp] theorem setBlValid_blValid (s : State) (f : Bool) : (s.setBlValid f).status.blValid = f := rfl
@[simp] theorem setBlValid_rnValid (s : State) (f : Bool) : (s.setBlValid f).status.rnValid = s.status.rnValid := rfl
@[simp] theorem setBlValid_sizes (s : State) (f : Bool) : (s.setBlValid f).sizes = s.sizes := rfl
@[simp] theorem setBlValid_wRows (s : State) (f : Bool) : (s.setBlValid f).wRows = s.wRows := rfl
@[simp] theorem setBlValid_wCols (s : State) (f : Bool) : (s.setBlValid f).wCols = s.wCols := rfl
@[simp] theorem setBlValid_shift (s : State) (f : Bool) : (s.setBlValid f).shift = s.shift := rfl
@[simp] theorem setBlValid_nDim (s : State) (f : Bool) : (s.setBlValid f).nDim = s.nDim := rfl
@[simp] theorem setBlValid_eps (s : State) (f : Bool) : (s.setBlValid f).eps = s.eps := rfl
@[simp] theorem setBlValid_xRows (s : State) (f : Bool) : (s.setBlValid f).xRows = s.xRows := rfl
@[simp] theorem setBlValid_xCols (s : State) (f : Bool) : (s.setBlValid f).xCols = s.xCols := rfl
@[simp] theorem setBlValid_opa (s : State) (f : Bool) : (s.setBlValid f).opa = s.opa := rfl
@[simp] theorem setBlValid_res (s : State) (f : Bool) : (s.setBlValid f).res = s.res := rfl
@[simp] theorem setBlValid_wmem (s : State) (f : Bool) : (s.setBlValid f).wmem = s.wmem := rfl
@[simp] theorem setBlValid_xmem (s : State) (f : Bool) : (s.setBlValid f).xmem = s.xmem := rfl
@[simp] theorem setBlValid_ymem (s : State) (f : Bool) : (s.setBlValid f).ymem = s.ymem := rfl
@[simp] theorem setBlValid_qmem (s : State) (f : Bool) : (s.setBlValid f).qmem = s.qmem := rfl
@[simp] theorem setBlValid_inputs (s : State) (f : Bool) : (s.setBlValid f).inputs = s.inputs := rfl
@[simp] theorem setBlValid_returned (s : State) (f : Bool) : (s.setBlValid f).returned = s.returned := rfl
@[simp] theorem setBlValid_freeCount (s : State) (f : Bool) : (s.setBlValid f).freeCount = s.freeCount := rfl
@[simp] theorem setBlValid_epoch (s : State) (f : Bool) : (s.setBlValid f).epoch = s.epoch := rfl
@[simp] theorem setBlValid_r (s : State) (f : Bool) : (s.setBlValid f).r = s.r := rfl
@[simp] theorem setBlValid_c (s : State) (f : Bool) : (s.setBlValid f).c = s.c := rfl
@[simp] theorem setBlValid_d (s : State) (f : Bool) : (s.setBlValid f).d = s.d := rfl
@[simp] theorem setBlValid_b (s : State) (f : Bool) : (s.setBlValid f).b = s.b := rfl
@[simp] theorem setBlValid_xc (s : State) (f : Bool) : (s.setBlValid f).xc = s.xc := rfl
@[simp] theorem setBlValid_shiftAmount (s : State) (f : Bool) : (s.setBlValid f).shiftAmount = s.shiftAmount := rfl
@[simp] theorem setBlValid_epsilon (s : State) (f : Bool) : (s.setBlValid f).epsilon = s.epsilon := rfl
@[simp] theorem setBlValid_operand (s : State) (f : Bool) : (s.setBlValid f).operand = s.operand := rfl
@[simp] theorem setBlValid_wmemAt (s : State) (f : Bool) : (s.setBlValid f).wmemAt = s.wmemAt := rfl
@[simp] theorem setBlValid_xmemAt (s : State) (f : Bool) : (s.setBlValid f).xmemAt = s.xmemAt := rfl
@[simp] theorem setBlValid_ymemAt (s : State) (f : Bool) : (s.setBlValid f).ymemAt = s.ymemAt := rfl
@[simp] theorem setBlValid_qmemAt (s : State) (f : Bool) : (s.setBlValid f).qmemAt = s.qmemAt := rfl
@[simp] theorem setBlValid_channelWeight (s : State) (f : Bool) : (s.setBlValid f).channelWeight = s.channelWeight := rfl
@[simp] theorem setBlValid_weight (s : State) (f : Bool) : (s.setBlValid f).weight = s.weight := rfl
@[simp] theorem setBlValid_activation (s : State) (f : Bool) : (s.setBlValid f).activation = s.activation := rfl
@[simp] theorem setBlValid_activationRow (s : State) (f : Bool) : (s.setBlValid f).activationRow = s.activationRow := rfl
@[simp] theorem setBlValid_channelWeights (s : State) (f : Bool) : (s.setBlValid f).channelWeights = s.channelWeights := rfl

/-! ### setRnValid -/

@[simp] theorem setRnValid_code (s : State) (f : Bool) : (s.setRnValid f).status.code = s.status.code := rfl
@[simp] theorem setRnValid_blValid (s : State) (f : Bool) : (s.setRnValid f).status.blValid = s.status.blValid := rfl
@[simp] theorem setRnValid_rnValid (s : State) (f : Bool) : (s.setRnValid f).status.rnValid = f := rfl
@[simp] theorem setRnValid_sizes (s : State) (f : Bool) : (s.setRnValid f).sizes = s.sizes := rfl
@[simp] theorem setRnValid_wRows (s : State) (f : Bool) : (s.setRnValid f).wRows = s.wRows := rfl
@[simp] theorem setRnValid_wCols (s : State) (f : Bool) : (s.setRnValid f).wCols = s.wCols := rfl
@[simp] theorem setRnValid_shift (s : State) (f : Bool) : (s.setRnValid f).shift = s.shift := rfl
@[simp] theorem setRnValid_nDim (s : State) (f : Bool) : (s.setRnValid f).nDim = s.nDim := rfl
@[simp] theorem setRnValid_eps (s : State) (f : Bool) : (s.setRnValid f).eps = s.eps := rfl
@[simp] theorem setRnValid_xRows (s : State) (f : Bool) : (s.setRnValid f).xRows = s.xRows := rfl
@[simp] theorem setRnValid_xCols (s : State) (f : Bool) : (s.setRnValid f).xCols = s.xCols := rfl
@[simp] theorem setRnValid_opa (s : State) (f : Bool) : (s.setRnValid f).opa = s.opa := rfl
@[simp] theorem setRnValid_res (s : State) (f : Bool) : (s.setRnValid f).res = s.res := rfl
@[simp] theorem setRnValid_wmem (s : State) (f : Bool) : (s.setRnValid f).wmem = s.wmem := rfl
@[simp] theorem setRnValid_xmem (s : State) (f : Bool) : (s.setRnValid f).xmem = s.xmem := rfl
@[simp] theorem setRnValid_ymem (s : State) (f : Bool) : (s.setRnValid f).ymem = s.ymem := rfl
@[simp] theorem setRnValid_qmem (s : State) (f : Bool) : (s.setRnValid f).qmem = s.qmem := rfl
@[simp] theorem setRnValid_inputs (s : State) (f : Bool) : (s.setRnValid f).inputs = s.inputs := rfl
@[simp] theorem setRnValid_returned (s : State) (f : Bool) : (s.setRnValid f).returned = s.returned := rfl
@[simp] theorem setRnValid_freeCount (s : State) (f : Bool) : (s.setRnValid f).freeCount = s.freeCount := rfl
@[simp] theorem setRnValid_epoch (s : State) (f : Bool) : (s.setRnValid f).epoch = s.epoch := rfl
@[simp] theorem setRnValid_r (s : State) (f : Bool) : (s.setRnValid f).r = s.r := rfl
@[simp] theorem setRnValid_c (s : State) (f : Bool) : (s.setRnValid f).c = s.c := rfl
@[simp] theorem setRnValid_d (s : State) (f : Bool) : (s.setRnValid f).d = s.d := rfl
@[simp] theorem setRnValid_b (s : State) (f : Bool) : (s.setRnValid f).b = s.b := rfl
@[simp] theorem setRnValid_xc (s : State) (f : Bool) : (s.setRnValid f).xc = s.xc := rfl
@[simp] theorem setRnValid_shiftAmount (s : State) (f : Bool) : (s.setRnValid f).shiftAmount = s.shiftAmount := rfl
@[simp] theorem setRnValid_epsilon (s : State) (f : Bool) : (s.setRnValid f).epsilon = s.epsilon := rfl
@[simp] theorem setRnValid_operand (s : State) (f : Bool) : (s.setRnValid f).operand = s.operand := rfl
@[simp] theorem setRnValid_wmemAt (s : State) (f : Bool) : (s.setRnValid f).wmemAt = s.wmemAt := rfl
@[simp] theorem setRnValid_xmemAt (s : State) (f : Bool) : (s.setRnValid f).xmemAt = s.xmemAt := rfl
@[simp] theorem setRnValid_ymemAt (s : State) (f : Bool) : (s.setRnValid f).ymemAt = s.ymemAt := rfl
@[simp] theorem setRnValid_qmemAt (s : State) (f : Bool) : (s.setRnValid f).qmemAt = s.qmemAt := rfl
@[simp] theorem setRnValid_channelWeight (s : State) (f : Bool) : (s.setRnValid f).channelWeight = s.channelWeight := rfl
@[simp] theorem setRnValid_weight (s : State) (f : Bool) : (s.setRnValid f).weight = s.weight := rfl
@[simp] theorem setRnValid_activation (s : State) (f : Bool) : (s.setRnValid f).activation = s.activation := rfl
@[simp] theorem setRnValid_activationRow (s : State) (f : Bool) : (s.setRnValid f).activationRow = s.activationRow := rfl
@[simp] theorem setRnValid_channelWeights (s : State) (f : Bool) : (s.setRnValid f).channelWeights = s.channelWeights := rfl

/-! ### deliver -/

@[simp] theorem deliver_returned (s : State) (p : Pattern) : (s.deliver p).returned = s.returned ++ [p] := rfl
@[simp] theorem deliver_status (s : State) (p : Pattern) : (s.deliver p).status = s.status := rfl
@[simp] theorem deliver_sizes (s : State) (p : Pattern) : (s.deliver p).sizes = s.sizes := rfl
@[simp] theorem deliver_wRows (s : State) (p : Pattern) : (s.deliver p).wRows = s.wRows := rfl
@[simp] theorem deliver_wCols (s : State) (p : Pattern) : (s.deliver p).wCols = s.wCols := rfl
@[simp] theorem deliver_shift (s : State) (p : Pattern) : (s.deliver p).shift = s.shift := rfl
@[simp] theorem deliver_nDim (s : State) (p : Pattern) : (s.deliver p).nDim = s.nDim := rfl
@[simp] theorem deliver_eps (s : State) (p : Pattern) : (s.deliver p).eps = s.eps := rfl
@[simp] theorem deliver_xRows (s : State) (p : Pattern) : (s.deliver p).xRows = s.xRows := rfl
@[simp] theorem deliver_xCols (s : State) (p : Pattern) : (s.deliver p).xCols = s.xCols := rfl
@[simp] theorem deliver_opa (s : State) (p : Pattern) : (s.deliver p).opa = s.opa := rfl
@[simp] theorem deliver_res (s : State) (p : Pattern) : (s.deliver p).res = s.res := rfl
@[simp] theorem deliver_wmem (s : State) (p : Pattern) : (s.deliver p).wmem = s.wmem := rfl
@[simp] theorem deliver_xmem (s : State) (p : Pattern) : (s.deliver p).xmem = s.xmem := rfl
@[simp] theorem deliver_ymem (s : State) (p : Pattern) : (s.deliver p).ymem = s.ymem := rfl
@[simp] theorem deliver_qmem (s : State) (p : Pattern) : (s.deliver p).qmem = s.qmem := rfl
@[simp] theorem deliver_inputs (s : State) (p : Pattern) : (s.deliver p).inputs = s.inputs := rfl
@[simp] theorem deliver_freeCount (s : State) (p : Pattern) : (s.deliver p).freeCount = s.freeCount := rfl
@[simp] theorem deliver_epoch (s : State) (p : Pattern) : (s.deliver p).epoch = s.epoch := rfl

/-! ### applyReset -/

@[simp] theorem applyReset_status (s : State) :
    s.applyReset.status = { code := .ok, blValid := false, rnValid := false } := rfl
@[simp] theorem applyReset_sizes (s : State) : s.applyReset.sizes = s.sizes := rfl
@[simp] theorem applyReset_wRows (s : State) : s.applyReset.wRows = 0 := rfl
@[simp] theorem applyReset_wCols (s : State) : s.applyReset.wCols = 0 := rfl
@[simp] theorem applyReset_shift (s : State) : s.applyReset.shift = 0 := rfl
@[simp] theorem applyReset_nDim (s : State) : s.applyReset.nDim = 0 := rfl
@[simp] theorem applyReset_eps (s : State) : s.applyReset.eps = 0 := rfl
@[simp] theorem applyReset_xRows (s : State) : s.applyReset.xRows = 0 := rfl
@[simp] theorem applyReset_xCols (s : State) : s.applyReset.xCols = 0 := rfl
@[simp] theorem applyReset_opa (s : State) : s.applyReset.opa = 0 := rfl
@[simp] theorem applyReset_res (s : State) : s.applyReset.res = 0 := rfl
@[simp] theorem applyReset_wmem (s : State) : s.applyReset.wmem = [] := rfl
@[simp] theorem applyReset_xmem (s : State) : s.applyReset.xmem = [] := rfl
@[simp] theorem applyReset_ymem (s : State) : s.applyReset.ymem = [] := rfl
@[simp] theorem applyReset_qmem (s : State) : s.applyReset.qmem = [] := rfl
@[simp] theorem applyReset_inputs (s : State) : s.applyReset.inputs = s.inputs := rfl
@[simp] theorem applyReset_returned (s : State) : s.applyReset.returned = s.returned := rfl
@[simp] theorem applyReset_freeCount (s : State) : s.applyReset.freeCount = s.freeCount := rfl
@[simp] theorem applyReset_epoch (s : State) : s.applyReset.epoch = s.epoch + 1 := rfl

/-! ### resetOf and reset -/

@[simp] theorem reset_eq_resetOf : State.reset = State.resetOf Config.sizes := rfl
@[simp] theorem resetOf_status (z : Config.Sizes) :
    (State.resetOf z).status = { code := .ok, blValid := false, rnValid := false } := rfl
@[simp] theorem resetOf_sizes (z : Config.Sizes) : (State.resetOf z).sizes = z := rfl
@[simp] theorem resetOf_wRows (z : Config.Sizes) : (State.resetOf z).wRows = 0 := rfl
@[simp] theorem resetOf_wCols (z : Config.Sizes) : (State.resetOf z).wCols = 0 := rfl
@[simp] theorem resetOf_shift (z : Config.Sizes) : (State.resetOf z).shift = 0 := rfl
@[simp] theorem resetOf_nDim (z : Config.Sizes) : (State.resetOf z).nDim = 0 := rfl
@[simp] theorem resetOf_eps (z : Config.Sizes) : (State.resetOf z).eps = 0 := rfl
@[simp] theorem resetOf_xRows (z : Config.Sizes) : (State.resetOf z).xRows = 0 := rfl
@[simp] theorem resetOf_xCols (z : Config.Sizes) : (State.resetOf z).xCols = 0 := rfl
@[simp] theorem resetOf_opa (z : Config.Sizes) : (State.resetOf z).opa = 0 := rfl
@[simp] theorem resetOf_res (z : Config.Sizes) : (State.resetOf z).res = 0 := rfl
@[simp] theorem resetOf_wmem (z : Config.Sizes) : (State.resetOf z).wmem = [] := rfl
@[simp] theorem resetOf_xmem (z : Config.Sizes) : (State.resetOf z).xmem = [] := rfl
@[simp] theorem resetOf_ymem (z : Config.Sizes) : (State.resetOf z).ymem = [] := rfl
@[simp] theorem resetOf_qmem (z : Config.Sizes) : (State.resetOf z).qmem = [] := rfl
@[simp] theorem resetOf_inputs (z : Config.Sizes) : (State.resetOf z).inputs = [] := rfl
@[simp] theorem resetOf_returned (z : Config.Sizes) : (State.resetOf z).returned = [] := rfl
@[simp] theorem resetOf_freeCount (z : Config.Sizes) : (State.resetOf z).freeCount = 0 := rfl
@[simp] theorem resetOf_epoch (z : Config.Sizes) : (State.resetOf z).epoch = 0 := rfl

end Sys2Proof.Machine
end

