-- ==== Sys2Proof/Laws/Exec.lean ====
section
/-! SUPPORT. What each command can do, said once: the next state it answers with, case by case, and the rows the forward
commands store. -/

namespace Sys2Proof.Machine

variable {s t : State}

/-! ### The stored grids -/

@[simp] theorem tmmRow_length (s : State) (b : Nat) : (s.tmmRow b).length = s.r := by simp [State.tmmRow]

theorem tmmRow_getElem? (s : State) (b : Nat) {r : Nat} (hr : r < s.r) :
    (s.tmmRow b)[r]? = some (enc 8 (s.tmmOutput b r)) := by simp [State.tmmRow, hr]

@[simp] theorem tmmGrid_length (s : State) : s.tmmGrid.length = s.b * s.r :=
  grid_length _ _ _ fun b _ => tmmRow_length s b

theorem tmmGrid_getElem? (s : State) {b r : Nat} (hb : b < s.b) (hr : r < s.r) :
    s.tmmGrid[b * s.r + r]? = some (enc 8 (s.tmmOutput b r)) := by
  rw [State.tmmGrid, grid_getElem? _ s.r _ (fun b _ => tmmRow_length s b) hb hr, tmmRow_getElem? s b hr]

theorem rnRow_length {wq x y : List Int} {eps : Int} (hl : wq.length = x.length) (h : rnRow wq eps x = some y) :
    y.length = x.length := by
  simp only [rnRow] at h
  split at h
  · simp at h
  · split at h <;> simp only [Option.some.injEq] at h <;> subst h <;> simp [hl]

@[simp] theorem activationRow_length (s : State) (n b : Nat) : (s.activationRow n b).length = n := by
  simp [State.activationRow]

@[simp] theorem channelWeights_length (s : State) : s.channelWeights.length = s.d := by simp [State.channelWeights]

@[simp] theorem rnStoredRow_length (s : State) (b : Nat) : (s.rnStoredRow b).length = s.d := by
  unfold State.rnStoredRow
  split
  · rename_i y hy
    rw [List.length_map, rnRow_length (by simp) hy, activationRow_length]
  · simp [State.undefinedRow]

@[simp] theorem rnGrid_length (s : State) : s.rnGrid.length = s.b * s.d :=
  grid_length _ _ _ fun b _ => rnStoredRow_length s b

theorem rnGrid_getElem? (s : State) {b i : Nat} (hb : b < s.b) (hi : i < s.d) :
    s.rnGrid[b * s.d + i]? = (s.rnStoredRow b)[i]? :=
  grid_getElem? _ s.d _ (fun b _ => rnStoredRow_length s b) hb hi

/-! ### What each command answers -/

theorem weightsLegal_iff (s : State) :
    s.weightsLegal = true ↔ ∀ i, i < s.r * s.c → legalWeight (s.wmemAt i) = true := by simp [State.weightsLegal]

/-- The next state of a successful BL.FWD. -/
def tmmDone (s : State) : State := ({ s with ymem := s.ymem.writeFrom 0 s.tmmGrid } : State).setCode .ok

/-- The next state of a successful RN.FWD. -/
def rnDone (s : State) : State :=
  ({ s with
    ymem := s.ymem.writeFrom 0 s.rnGrid
    freeCount := if s.rnDefined then s.freeCount else s.freeCount + 1 } : State).setCode .ok

theorem execNop_eq (s : State) : execNop s = .next (s.setCode .ok) := rfl

theorem execBlBuild_cases (h : execBlBuild s = .next t) :
    ((s.c > 16777215 ∨ s.r * s.c > s.sizes.wmem) ∧ t = (s.setBlValid false).setCode .errDim) ∨
    (s.c ≤ 16777215 ∧ s.r * s.c ≤ s.sizes.wmem ∧ s.weightsLegal = false ∧
      t = (s.setBlValid false).setCode .invalidWeight) ∨
    (s.c ≤ 16777215 ∧ s.r * s.c ≤ s.sizes.wmem ∧ s.weightsLegal = true ∧ t = (s.setBlValid true).setCode .ok) := by
  unfold execBlBuild at h
  split at h
  · rename_i hd
    cases h
    exact .inl ⟨hd, rfl⟩
  · rename_i hd
    simp only [Config.maxC, gt_iff_lt, not_or, not_lt] at hd
    split at h <;> cases h <;> simp_all

theorem execBlFwd_cases (h : execBlFwd s = .next t) :
    (s.status.blValid = false ∧ t = s.setCode .errNoLayer) ∨
    (s.status.blValid = true ∧ s.xc ≠ s.c ∧ t = s.setCode .shapeMismatch) ∨
    (s.status.blValid = true ∧ s.xc = s.c ∧ (s.b * s.c > s.sizes.xmem ∨ s.b * s.r > s.sizes.ymem) ∧
      t = s.setCode .errDim) ∨
    (s.status.blValid = true ∧ s.xc = s.c ∧ s.b * s.c ≤ s.sizes.xmem ∧ s.b * s.r ≤ s.sizes.ymem ∧ t = tmmDone s) := by
  unfold execBlFwd at h
  split at h
  · cases h; simp_all
  · split at h
    · cases h; simp_all
    · split at h
      · cases h; simp_all
      · rename_i hd
        simp only [gt_iff_lt, not_or, not_lt] at hd
        cases h; simp_all [tmmDone]

theorem execRnBuild_cases (h : execRnBuild s = .next t) :
    ((s.d = 0 ∨ s.d > 33554431 ∨ s.d > s.sizes.qmem) ∧ t = (s.setRnValid false).setCode .errDim) ∨
    (1 ≤ s.d ∧ s.d ≤ 33554431 ∧ s.d ≤ s.sizes.qmem ∧ t = (s.setRnValid true).setCode .ok) := by
  unfold execRnBuild at h
  split at h
  · rename_i hd
    cases h
    exact .inl ⟨hd, rfl⟩
  · rename_i hd
    simp only [Config.maxD, not_or, gt_iff_lt, not_lt] at hd
    cases h
    exact .inr ⟨by omega, by omega, by omega, rfl⟩

theorem execRnFwd_cases (h : execRnFwd s = .next t) :
    (s.status.rnValid = false ∧ t = s.setCode .errNoLayer) ∨
    (s.status.rnValid = true ∧ s.xc ≠ s.d ∧ t = s.setCode .shapeMismatch) ∨
    (s.status.rnValid = true ∧ s.xc = s.d ∧ (s.b * s.d > s.sizes.xmem ∨ s.b * s.d > s.sizes.ymem) ∧
      t = s.setCode .errDim) ∨
    (s.status.rnValid = true ∧ s.xc = s.d ∧ s.b * s.d ≤ s.sizes.xmem ∧ s.b * s.d ≤ s.sizes.ymem ∧ t = rnDone s) := by
  unfold execRnFwd at h
  split at h
  · cases h; simp_all
  · split at h
    · cases h; simp_all
    · split at h
      · cases h; simp_all
      · rename_i hd
        simp only [gt_iff_lt, not_or, not_lt] at hd
        cases h; simp_all [rnDone]

theorem execIsqrt_cases (h : execIsqrt s = .next t) :
    (s.operand < 0 ∧ t = ({ s with
      res := Config.negativeSqrt s.freeCount s.opa, freeCount := s.freeCount + 1 } : State).setCode .ok) ∨
    (0 ≤ s.operand ∧ t = ({ s with res := enc 64 (isqrt s.operand.toNat) } : State).setCode .ok) := by
  unfold execIsqrt at h
  split at h <;> cases h <;> simp_all

theorem execClamp8_eq (s : State) :
    execClamp8 s = .next (({ s with res := enc 64 (clampInt8 s.operand) } : State).setCode .ok) := rfl

end Sys2Proof.Machine
end

