-- ==== Sys2Proof/Laws/PerInstr.lean ====
section
/-! SUPPORT. The family RoundTrip: the encoding of a well-formed command decodes to that command, and its ZERO field is
0 (30_encoding R76, R77). -/

namespace Sys2Proof.Laws

/-- The command's word decodes to it and has a ZERO field of 0. -/
def RoundTrip.Statement (i : Instr) : Prop :=
  i.wf = true ∧ decode (encode i) = .ok i ∧ zeroField (encode i) = 0 ∧ opcField (encode i) = i.opc

theorem RoundTrip.nop : RoundTrip.Statement .nop := by unfold RoundTrip.Statement; decide
theorem RoundTrip.blBuild : RoundTrip.Statement .blBuild := by unfold RoundTrip.Statement; decide
theorem RoundTrip.blFwd : RoundTrip.Statement .blFwd := by unfold RoundTrip.Statement; decide
theorem RoundTrip.rnBuild : RoundTrip.Statement .rnBuild := by unfold RoundTrip.Statement; decide
theorem RoundTrip.rnFwd : RoundTrip.Statement .rnFwd := by unfold RoundTrip.Statement; decide
theorem RoundTrip.isqrt : RoundTrip.Statement .isqrt := by unfold RoundTrip.Statement; decide
theorem RoundTrip.clamp8 : RoundTrip.Statement .clamp8 := by unfold RoundTrip.Statement; decide

end Sys2Proof.Laws
end

