-- ==== Sys2Proof/Laws/Port.lean ====
section
/-! SUPPORT. What a step can do, said once: the host port by cases on the event it takes. -/

namespace Sys2Proof.Machine

@[simp] theorem regOfNumber_number (r : Reg) : Reg.ofNumber r.number = some r := by cases r <;> rfl
@[simp] theorem spaceOfId_id (sp : Space) : Space.ofId sp.id = some sp := by cases sp <;> rfl

theorem regOfNumber_eq_none {n : Nat} (h : 10 < n) : Reg.ofNumber n = none := by
  match n, h with
  | _ + 11, _ => rfl

theorem spaceOfId_eq_none {n : Nat} (h : 3 < n) : Space.ofId n = none := by
  match n, h with
  | _ + 4, _ => rfl

theorem eq_number_of_regOfNumber {n : Nat} {r : Reg} (h : Reg.ofNumber n = some r) : n = r.number := by
  by_cases hn : 10 < n
  · simp [regOfNumber_eq_none hn] at h
  · interval_cases n <;> simp only [Reg.ofNumber, Option.some.injEq] at h <;> subst h <;> rfl

theorem eq_id_of_spaceOfId {n : Nat} {sp : Space} (h : Space.ofId n = some sp) : n = sp.id := by
  by_cases hn : 3 < n
  · simp [spaceOfId_eq_none hn] at h
  · interval_cases n <;> simp only [Space.ofId, Option.some.injEq] at h <;> subst h <;> rfl

/-- What an event does when it goes on: the event on the left of each case, the next state on its right. -/
inductive Effect (s : State) : Event → State → Prop
  | reset : Effect s .reset s.applyReset
  | command (w : Word) (i : Instr) (t : State) : decode w = .ok i → exec i s = .next t →
      Effect s (commandEvent w) t
  | illegalWord (w : Word) (e : DecodeError) : decode w = .error e →
      Effect s (commandEvent w) (s.setCode .errBadCmd)
  | writeReg32 (r : Reg) (v : Word) : r ≠ .cmd → r.width = 32 →
      Effect s (.transaction (.regWrite r.number ⟨32, v⟩)) (s.writeReg32 r v)
  | writeReg64 (r : Reg) (v : DWord) : r.width = 64 →
      Effect s (.transaction (.regWrite r.number ⟨64, v⟩)) (s.writeReg64 r v)
  | readReg (r : Reg) : Effect s (.transaction (.regRead r.number)) (s.deliver (s.readReg r))
  | writeSpace (sp : Space) (i : Nat) (p : BitVec sp.width) : i < s.sizes.ofSpace sp →
      Effect s (.transaction (.memWrite sp.id i ⟨sp.width, p⟩)) (s.writeSpace sp i ⟨sp.width, p⟩)
  | readSpace (sp : Space) (i : Nat) : i < s.sizes.ofSpace sp →
      Effect s (.transaction (.memRead sp.id i sp.width)) (s.deliver (s.spaceAt sp i))

theorem reg_width_cases (r : Reg) : r.width = 32 ∨ r.width = 64 := by cases r <;> simp [Reg.width]

/-- A pattern of width `k` by its bits at that width. -/
theorem pattern_eq (p : Pattern) {k : Nat} (h : p.width = k) : p = ⟨k, p.bits.setWidth k⟩ := by
  obtain ⟨w, bits⟩ := p
  obtain rfl : w = k := h
  simp

theorem regWrite_effect {n : Nat} {v : Pattern} {s t : State} (h : regWrite n v s = .next t) :
    Effect s (.transaction (.regWrite n v)) t := by
  unfold regWrite at h
  split at h
  · simp at h
  · rename_i r hr
    obtain rfl := eq_number_of_regOfNumber hr
    by_cases hw : v.width = r.width
    · rw [if_neg (by simp [hw])] at h
      rw [pattern_eq v hw]
      by_cases hc : r = .cmd
      · subst hc
        rw [if_pos rfl] at h
        unfold writeCmd at h
        split at h
        · exact .command _ _ t ‹_› h
        · cases h
          exact .illegalWord _ _ ‹_›
      · rw [if_neg hc] at h
        rcases reg_width_cases r with hr32 | hr64
        · rw [if_pos hr32] at h
          cases h
          rw [hr32]
          exact .writeReg32 r _ hc hr32
        · rw [if_neg (by omega)] at h
          cases h
          rw [hr64]
          exact .writeReg64 r _ hr64
    · rw [if_pos hw] at h
      simp at h

theorem regRead_effect {n : Nat} {s t : State} (h : regRead n s = .next t) :
    Effect s (.transaction (.regRead n)) t := by
  unfold regRead at h
  split at h
  · simp at h
  · obtain rfl := eq_number_of_regOfNumber ‹_›
    cases h
    exact .readReg _

theorem memWrite_effect {sp i : Nat} {p : Pattern} {s t : State} (h : memWrite sp i p s = .next t) :
    Effect s (.transaction (.memWrite sp i p)) t := by
  unfold memWrite at h
  split at h
  · simp at h
  · rename_i space hsp
    obtain rfl := eq_id_of_spaceOfId hsp
    by_cases hi : s.sizes.ofSpace space ≤ i
    · rw [if_pos hi] at h
      simp at h
    · rw [if_neg hi] at h
      by_cases hw : p.width = space.width
      · rw [if_neg (by simp [hw])] at h
        cases h
        rw [pattern_eq p hw]
        exact .writeSpace space i _ (by omega)
      · rw [if_pos hw] at h
        simp at h

theorem memRead_effect {sp i w : Nat} {s t : State} (h : memRead sp i w s = .next t) :
    Effect s (.transaction (.memRead sp i w)) t := by
  unfold memRead at h
  split at h
  · simp at h
  · rename_i space hsp
    obtain rfl := eq_id_of_spaceOfId hsp
    by_cases hi : s.sizes.ofSpace space ≤ i
    · rw [if_pos hi] at h
      simp at h
    · rw [if_neg hi] at h
      by_cases hw : w = space.width
      · rw [if_neg (by simp [hw])] at h
        cases h
        subst hw
        exact .readSpace space i (by omega)
      · rw [if_pos hw] at h
        simp at h

theorem handle_effect {e : Event} {s t : State} (h : handle e s = .next t) : Effect s e t := by
  cases e with
  | reset =>
    cases h
    exact .reset
  | transaction x =>
    cases x with
    | regWrite n v => exact regWrite_effect h
    | regRead n => exact regRead_effect h
    | memWrite sp i p => exact memWrite_effect h
    | memRead sp i w => exact memRead_effect h

/-- Once everything a step can do: nothing, with nothing to come, or the effect of the next event. -/
theorem step_cases {s t : State} (h : step s = .next t) :
    (s.inputs = [] ∧ t = s) ∨
    ∃ e rest, s.inputs = e :: rest ∧ Effect { s with inputs := rest } e t := by
  unfold step advance at h
  split at h
  · cases h
    exact .inl ⟨‹_›, rfl⟩
  · exact .inr ⟨_, _, ‹_›, handle_effect h⟩

end Sys2Proof.Machine
end

