-- ==== Sys2Proof/Laws/Run.lean ====
section
/-! SUPPORT. Several steps of the machine, one step at a time. -/

namespace Sys2Proof.Machine

theorem core_run_zero (s : State) : Host.Core.run Sys2Proof.core 0 s = .next s := rfl

/-- A step that goes on hands the rest of the run to its next state, on any machine. -/
theorem run_succ_of_next (M : Host.Core) (k : Nat) (s t : M.State) (h : M.step s = .next t) :
    M.run (k + 1) s = M.run k t := by
  rw [Host.Core.run, h]

/-- A step that goes on hands the rest of the run to its next state. -/
theorem core_run_succ {s t : State} (k : Nat) (h : step s = .next t) :
    Host.Core.run Sys2Proof.core (k + 1) s = Host.Core.run Sys2Proof.core k t :=
  run_succ_of_next Sys2Proof.core k s t h

end Sys2Proof.Machine
end

