-- ==== Sys2Proof/Tests/Slice0.lean ====
section
/-! SUPPORT. The model's own tests: ill-formed terms that the checks refuse, the words of the opcode table written out,
one step of each command on a vector of spec/95_test_vectors.md, and for each statement with hypotheses a concrete state
that meets them. -/

namespace Sys2Proof.Tests

open Sys2Proof Sys2Proof.Machine

/-! ### Helpers -/

/-- The sizes that 95_test_vectors.md assumes. -/
def vectorSizes : Config.Sizes := { wmem := 16, xmem := 8, ymem := 8, qmem := 4 }

/-- A field of the next state, if there is one. -/
def field {α : Type} (f : State → α) : Host.Outcome State Fault Refusal → Option α
  | .next t => some (f t)
  | .fault _ => none
  | .refused _ => none

/-- The reset state with the sizes of the vectors. -/
def fresh : State := State.resetOf vectorSizes

/-- The weight row [1,-1,0,1] and the activation row [127,127,127,127] of S1, staged. -/
def staged : State :=
  { fresh with
    wRows := 1, wCols := 4, xRows := 1, xCols := 4
    wmem := [(0, 0x01), (1, 0xFF), (2, 0x00), (3, 0x01)]
    xmem := [(0, 0x7F), (1, 0x7F), (2, 0x7F), (3, 0x7F)] }

/-- The same with its layer built. -/
def layered : State := staged.setBlValid true

/-- The layer of V-TM-18 with its batch of three rows. -/
def batch : State :=
  { fresh with
    sizes := { vectorSizes with xmem := 9 }
    status := { code := .ok, blValid := true, rnValid := false }
    wRows := 2, wCols := 3, shift := 1, xRows := 3, xCols := 3
    wmem := [(0, 1), (1, 0), (2, 0xFF), (3, 1), (4, 1), (5, 1)]
    xmem := [(0, 10), (1, 20), (2, 30), (3, 0x9C), (4, 0x9C), (5, 0x9C), (6, 127), (7, 0), (8, 0x80)] }

/-- The golden layer of S9 with its row, RN.BUILD done. -/
def golden : State :=
  { fresh with
    status := { code := .ok, blValid := false, rnValid := true }
    nDim := 4, eps := 429, xRows := 1, xCols := 4
    qmem := [(0, 65536), (1, 65536), (2, 65536), (3, 65536)]
    xmem := [(0, 0x81), (1, 0xCE), (2, 0x00), (3, 0x7F)] }

/-- A layer of one channel with an epsilon of -1 and two rows, [1] of V-RN-23 and [0] of V-RN-40. -/
def halfDefined : State :=
  { golden with
    nDim := 1, eps := BitVec.ofInt 64 (-1), xRows := 2, xCols := 1, qmem := [(0, 65536)], xmem := [(0, 1), (1, 0)] }

/-- OPA loaded with a value. -/
def withOpa (v : Int) : State := { fresh with opa := BitVec.ofInt 64 v }

/-! ### The checks refuse ill-formed terms -/

theorem test_command_wf : (Instr.nop).wf = true := by decide
theorem test_register_number_refused : (Transaction.regRead 0x0B).wf vectorSizes = false := by decide
theorem test_register_write_number_refused : (Transaction.regWrite 0x0B ⟨32, 0⟩).wf vectorSizes = false := by decide
theorem test_register_width_refused : (Transaction.regWrite 0x06 ⟨32, 0⟩).wf vectorSizes = false := by decide
theorem test_space_refused : (Transaction.memRead 4 0 8).wf vectorSizes = false := by decide
theorem test_space_write_refused : (Transaction.memWrite 4 0 ⟨8, 0⟩).wf vectorSizes = false := by decide
theorem test_index_refused : (Transaction.memWrite 0 16 ⟨8, 0⟩).wf vectorSizes = false := by decide
theorem test_index_read_refused : (Transaction.memRead 3 4 32).wf vectorSizes = false := by decide
theorem test_element_width_refused : (Transaction.memWrite 3 0 ⟨8, 0⟩).wf vectorSizes = false := by decide
theorem test_element_read_width_refused : (Transaction.memRead 0 0 32).wf vectorSizes = false := by decide
theorem test_sizes_refused : Config.Sizes.wf { vectorSizes with qmem := 0 } = false := by decide
theorem test_transaction_accepted : (Transaction.memWrite 3 3 ⟨32, 0⟩).wf vectorSizes = true := by decide
theorem test_ragged_grid_refused : gridCols [[1, 2], [3]] = none := by decide

/-! ### The words of 30_encoding R77, bit by bit, and the illegal words of 95_test_vectors V-DC -/

theorem test_decode_nop : decode 0b00000000000000000000000000000000#32 = .ok .nop := by decide
theorem test_decode_bl_build : decode 0b00000000000000000000000000000001#32 = .ok .blBuild := by decide
theorem test_decode_bl_fwd : decode 0b00000000000000000000000000000010#32 = .ok .blFwd := by decide
theorem test_decode_rn_build : decode 0b00000000000000000000000000000011#32 = .ok .rnBuild := by decide
theorem test_decode_rn_fwd : decode 0b00000000000000000000000000000100#32 = .ok .rnFwd := by decide
theorem test_decode_isqrt : decode 0b00000000000000000000000000000101#32 = .ok .isqrt := by decide
theorem test_decode_clamp8 : decode 0b00000000000000000000000000000110#32 = .ok .clamp8 := by decide
theorem test_decode_unassigned : decode 0x00000007#32 = .error .unassignedOpcode := by decide
theorem test_decode_zero_field : decode 0x00000101#32 = .error .zeroFieldNotZero := by decide
theorem test_decode_high_bit : decode 0x80000002#32 = .error .zeroFieldNotZero := by decide
theorem test_table_word : decodeTableWord 32 5 = some .isqrt := by decide

/-! ### One step of each command -/

/-- V-DC-8: NOP overwrites CODE with OK and keeps the flags. -/
theorem test_nop : field (fun t => t.status.word) (exec .nop
    { fresh with status := { code := .errBadCmd, blValid := true, rnValid := true } }) = some 0x300#32 := by decide
/-- V-TM-1: the build of S1 ends OK. -/
theorem test_bl_build : field (fun t => t.status.word) (exec .blBuild staged) = some 0x100#32 := by decide
/-- V-TM-20: a weight of 2 is invalid. -/
theorem test_bl_build_invalid : field (fun t => t.status.word)
    (exec .blBuild { staged with wCols := 2, wmem := [(0, 0x01), (1, 0x02)] }) = some 0x001#32 := by decide
/-- V-TM-18: three rows, two outputs, shift 1, row-major. -/
theorem test_bl_fwd : field (fun t => t.ymem) (exec .blFwd batch) =
    some [(0, 0xF6), (1, 0x1E), (2, 0x00), (3, 0x80), (4, 0x7F), (5, 0xFF)] := by decide
/-- V-TM-38: the shape is tested before the capacity. -/
theorem test_bl_fwd_shape_first : field (fun t => t.status.word)
    (exec .blFwd { layered with xCols := 3, xRows := 3 }) = some 0x102#32 := by decide
/-- V-RN-31: N_DIM above QMEM_SIZE. -/
theorem test_rn_build_too_large : field (fun t => t.status.word) (exec .rnBuild { fresh with nDim := 5 }) =
    some 0x004#32 := by decide
/-- V-RN-1: the golden layer builds. -/
theorem test_rn_build : field (fun t => t.status.word) (exec .rnBuild (golden.setRnValid false)) = some 0x200#32 := by
  decide
/-- V-RN-1: the golden row. -/
theorem test_rn_fwd : field (fun t => t.ymem) (exec .rnFwd golden) =
    some [(0, 0xA8), (1, 0xDD), (2, 0x00), (3, 0x57)] := by decide
/-- V-RN-3: the division truncates. -/
theorem test_rn_fwd_truncates : field (fun t => t.ymem)
    (exec .rnFwd { golden with nDim := 2, xCols := 2, xmem := [(0, 0x80), (1, 0x84)] }) =
    some [(0, 0xBF), (1, 0xC1)] := by decide
/-- V-SQ-30: the largest operand. -/
theorem test_isqrt : field (fun t => t.res) (exec .isqrt (withOpa (2 ^ 63 - 1))) = some 0x00000000B504F333#64 := by
  decide
/-- V-SQ-31: a negative operand ends OK and changes no flag. -/
theorem test_isqrt_negative : field (fun t => t.status.word) (exec .isqrt (withOpa (-1))) = some 0#32 := by decide
/-- V-CL-6 and C1: -129 saturates, -127 does not. -/
theorem test_clamp8 : field (fun t => t.res) (exec .clamp8 (withOpa (-129))) = some 0xFFFFFFFFFFFFFF80#64 := by decide
theorem test_clamp8_in_range : field (fun t => t.res) (exec .clamp8 (withOpa (-127))) =
    some 0xFFFFFFFFFFFFFF81#64 := by decide

/-! ### The port -/

/-- V-DC-2: an illegal word. -/
theorem test_illegal_word : field (fun t => t.status.word) (step
    ({ fresh with status := { code := .ok, blValid := true, rnValid := true } }.given (.regWrite 0 ⟨32, 7⟩))) =
    some 0x305#32 := by decide
/-- V-TM-34: a parameter write destroys the layer. -/
theorem test_parameter_write : field (fun t => t.status.blValid) (step (layered.given (.regWrite 4 ⟨32, 0⟩))) =
    some false := by decide
/-- The first instruction after reset, with the sizes still open. -/
theorem test_fetch_after_reset : field (fun t => t.status.code) (step (State.reset.withFetchWord 32 2)) =
    some .errNoLayer := by decide
/-- BL.BUILD as the first instruction after reset: the empty grid builds whatever the sizes (V-TM-30). -/
theorem test_build_after_reset : field (fun t => t.status.word) (step (State.reset.withFetchWord 32 1)) =
    some 0x100#32 := by decide
/-- The pseudo-instruction `cmd` writes the command's word to CMD. -/
theorem test_script_cmd : Event.transaction (scriptCmd .blFwd) = commandEvent 0x00000002#32 := by decide
/-- `bitlinear [[1,-1]], 3` (30_encoding R85). -/
theorem test_script_bitlinear : scriptBitlinear [[1, -1]] 3 = some
    [.regWrite 2 ⟨32, 1⟩, .regWrite 3 ⟨32, 2⟩, .regWrite 4 ⟨32, 3⟩, .memWrite 0 0 ⟨8, 0x01⟩, .memWrite 0 1 ⟨8, 0xFF⟩,
      .regWrite 0 ⟨32, 1⟩] := by decide

/-! ### Witnesses: states that meet the hypotheses of the statements -/

theorem witness_IllegalWordChangesOnlyCode :
    (fresh.given (.regWrite 0 ⟨32, 0x107⟩)).inputs = commandEvent 0x107#32 :: [] ∧
    ∀ i, (0x107#32 : Word) ≠ encode i := ⟨rfl, by intro i; cases i <;> decide⟩
theorem witness_StepRunsDecodedCommand :
    (golden.given (.regWrite 0 ⟨32, 4⟩)).inputs = commandEvent 4#32 :: [] ∧ decode 4#32 = .ok .rnFwd :=
  ⟨rfl, by decide⟩
theorem witness_StepRunsFetchWord : decodeTableWord 32 6 = some .clamp8 := by decide
theorem witness_ArithmeticShiftFloors : |(-127 : Int)| < 2 ^ 7 := by decide
theorem witness_DivisionTruncates : (-2 : Int) ≠ 0 ∧ tdiv (-7) (-2) ≠ 0 := by decide
theorem witness_ClampSaturates : (-129 : Int) ≤ -128 := by decide
theorem witness_IsqrtIsFloorSqrt : 1 ≤ 1 ∧ isqrt 0 = 0 ∧ 3 ≤ 4 := by decide
theorem witness_NewtonLoopTerminates :
    (2 ≤ 3) ∧ (1 ≤ 1) ∧ Nat.sqrt 3 < 2 ∧ 3 ≤ 3 ∧ 3 - Nat.sqrt 3 + 1 ≤ 3 := by
  have h : Nat.sqrt 3 = 1 := (Nat.eq_sqrt.mpr (by decide)).symm
  simp [h]

/-- The three clauses: the largest C with an empty grid, C one above it, and a grid with one illegal weight. -/
theorem witness_BlBuildValidates_ok :
    (BitVec.toNat (16777215 : Word) ≤ 16777215 ∧ BitVec.toNat (0 : Word) * BitVec.toNat (16777215 : Word) ≤ 16) ∧
    staged.wCols.toNat ≤ 16777215 ∧ staged.wRows.toNat * staged.wCols.toNat ≤ staged.sizes.wmem ∧
    ∀ i, i < staged.wRows.toNat * staged.wCols.toNat →
      staged.wmemAt i = 0xFF#8 ∨ staged.wmemAt i = 0x00#8 ∨ staged.wmemAt i = 0x01#8 := by decide
theorem witness_BlBuildValidates_dim :
    16777215 < ({ fresh with wCols := 16777216 } : State).wCols.toNat ∧
    ({ fresh with wRows := 17, wCols := 1 } : State).sizes.wmem <
      ({ fresh with wRows := 17, wCols := 1 } : State).wRows.toNat * (1 : Word).toNat := by decide
theorem witness_BlBuildValidates_invalid :
    let s : State := { staged with wmem := [(0, 0x01), (1, 0x02), (2, 0x00), (3, 0x80)] }
    s.wCols.toNat ≤ 16777215 ∧ s.wRows.toNat * s.wCols.toNat ≤ s.sizes.wmem ∧
    ∃ i, i < s.wRows.toNat * s.wCols.toNat ∧ s.wmemAt i ≠ 0xFF#8 ∧ s.wmemAt i ≠ 0x00#8 ∧ s.wmemAt i ≠ 0x01#8 :=
  ⟨by decide, by decide, 1, by decide⟩

theorem witness_BlFwdFailsInOrder :
    staged.status.blValid = false ∧
    (layered.status.blValid = true ∧ ({ layered with xCols := 3 } : State).xCols ≠ layered.wCols) ∧
    (layered.xCols = layered.wCols ∧
      layered.sizes.xmem < ({ layered with xRows := 3 } : State).xRows.toNat * layered.wCols.toNat) ∧
    batch.sizes.ymem < ({ batch with wRows := 3 } : State).xRows.toNat * (3 : Word).toNat := by decide
theorem witness_BlFwdMeetsContract :
    batch.status.blValid = true ∧ batch.xCols = batch.wCols ∧
    batch.xRows.toNat * batch.wCols.toNat ≤ batch.sizes.xmem ∧
    batch.xRows.toNat * batch.wRows.toNat ≤ batch.sizes.ymem ∧ 2 < batch.xRows.toNat ∧ 1 < batch.wRows.toNat := by
  decide

/-- The invariant holds of a machine with a layer in each slot. -/
theorem batch_inv : batch.Inv :=
  { sizes_wf := by decide
    memory := by constructor <;> decide
    bl := fun _ => { cols_le := by decide, fits := by decide, legal := by decide }
    rn := fun h => absurd h (by decide) }
theorem golden_inv : golden.Inv :=
  { sizes_wf := by decide
    memory := by constructor <;> decide
    bl := fun h => absurd h (by decide)
    rn := fun _ => { pos := by decide, le_max := by decide, fits := by decide } }

theorem witness_AccumulatorFitsInt32 : batch.Inv ∧ batch.status.blValid = true ∧ 1 < batch.r :=
  ⟨batch_inv, by decide, by decide⟩
theorem witness_ShiftCountSaturatesAt31 :
    State.Inv { batch with shift := 31 } ∧ batch.status.blValid = true ∧ 1 < batch.r ∧
    31 ≤ ({ batch with shift := 31 } : State).shiftAmount :=
  ⟨{ sizes_wf := by decide
     memory := by constructor <;> decide
     bl := fun _ => { cols_le := by decide, fits := by decide, legal := by decide }
     rn := fun h => absurd h (by decide) }, by decide, by decide, by decide⟩
theorem witness_BlFwdElementsIndependent :
    exec .blFwd batch = .next (tmmDone batch) ∧ (tmmDone batch).status.code = .ok ∧ 2 < batch.b ∧ 1 < batch.r ∧
    (∀ c, c < batch.c → batch.weight 1 c = batch.weight 1 c) ∧
    (∀ c, c < batch.c → batch.activation 2 c = batch.activation 2 c) :=
  ⟨rfl, by decide, by decide, by decide, fun _ _ => rfl, fun _ _ => rfl⟩
/-- Two states that agree on the footprint and differ elsewhere: in RES, in YMEM, in an XMEM element past B*C. -/
theorem witness_BlFwdReadsOnlyFootprint :
    let s' : State := { layered with res := 7, ymem := [(5, 3)], xmem := layered.xmem ++ [(7, 9)] }
    exec .blFwd layered = .next (tmmDone layered) ∧ exec .blFwd s' = .next (tmmDone s') ∧
    (tmmDone layered).status.code = .ok ∧ (∀ i, i < layered.r * layered.c → layered.wmemAt i = s'.wmemAt i) ∧
    (∀ i, i < layered.b * layered.c → layered.xmemAt i = s'.xmemAt i) :=
  ⟨rfl, rfl, by decide, by decide, by decide⟩
theorem witness_ClampEightIdempotent :
    ∃ t u, exec .clamp8 (withOpa 300) = .next t ∧ exec .clamp8 { t with opa := t.res } = .next u ∧ u.res = 127 :=
  ⟨_, _, rfl, rfl, by decide⟩

/-- The bounds of N_DIM: 1 and QMEM_SIZE build, 0, QMEM_SIZE + 1 and MAX_D + 1 fail. -/
theorem witness_RnBuildChecksDimension :
    (1 ≤ (1 : Word).toNat ∧ (4 : Word).toNat ≤ 33554431 ∧ (4 : Word).toNat ≤ fresh.sizes.qmem) ∧
    fresh.nDim.toNat = 0 ∧ fresh.sizes.qmem < ({ fresh with nDim := 5 } : State).nDim.toNat ∧
    33554431 < ({ fresh with nDim := 33554432 } : State).nDim.toNat := by decide
theorem witness_RnFwdFailsInOrder :
    fresh.status.rnValid = false ∧
    (golden.status.rnValid = true ∧ ({ golden with xCols := 3 } : State).xCols ≠ golden.nDim) ∧
    (golden.xCols = golden.nDim ∧
      golden.sizes.xmem < ({ golden with xRows := 3 } : State).xRows.toNat * golden.nDim.toNat) := by decide
/-- The hypotheses hold of the golden row, and of a batch with one defined and one undefined row. -/
theorem witness_RnFwdMeetsContract :
    (golden.status.rnValid = true ∧ golden.xCols = golden.nDim ∧ 1 ≤ golden.nDim.toNat ∧
      golden.xRows.toNat * golden.nDim.toNat ≤ golden.sizes.xmem ∧
      golden.xRows.toNat * golden.nDim.toNat ≤ golden.sizes.ymem ∧ 0 ≤ golden.radicand 0) ∧
    (halfDefined.status.rnValid = true ∧ halfDefined.xCols = halfDefined.nDim ∧ 1 ≤ halfDefined.nDim.toNat ∧
      halfDefined.xRows.toNat * halfDefined.nDim.toNat ≤ halfDefined.sizes.xmem ∧
      halfDefined.xRows.toNat * halfDefined.nDim.toNat ≤ halfDefined.sizes.ymem ∧
      0 ≤ halfDefined.radicand 0 ∧ halfDefined.radicand 1 < 0) := by decide
theorem witness_NonNegativeEpsilonSuffices : 0 ≤ golden.eps.toInt := by decide
theorem witness_RmsIntermediatesFitInt64 :
    let x : List Int := [-127, -50, 0, 127]
    1 ≤ x.length ∧ x.length ≤ 33554431 ∧ (∀ v ∈ x, IsInt8 v) ∧ IsInt64 429 ∧ 0 ≤ rmsSqQ24 429 x ∧
    1 ≤ isqrt (rmsSqQ24 429 x).toNat ∧ IsInt32 (-2 ^ 31) ∧ (1 : Int) ≤ rmsSqQ24 429 x := by decide
theorem witness_BypassExactlyAtZeroRadicand :
    let x : List Int := [0, 0, 0]
    1 ≤ x.length ∧ x.length ≤ 33554431 ∧ (0 : Int) ≤ 255 ∧ rmsSqQ24 255 x = 0 ∧ rmsSqQ24 256 x ≠ 0 := by decide
theorem witness_AllZeroRowGivesZeros : (0 : Int) ≤ 429 ∧ ([65536, -1, 0] : List Int).length = 3 := by decide
/-- The golden row as row 0 of one batch and as row 1 of another (V-RN-20). -/
theorem witness_RnFwdRowsIndependent :
    let s' : State := { golden with
      xRows := 2, xmem := [(0, 0), (1, 0), (2, 0), (3, 0), (4, 0x81), (5, 0xCE), (6, 0x00), (7, 0x7F)] }
    exec .rnFwd golden = .next (rnDone golden) ∧ exec .rnFwd s' = .next (rnDone s') ∧
    (rnDone golden).status.code = .ok ∧ (rnDone s').status.code = .ok ∧ 0 < golden.b ∧ 1 < s'.b ∧
    (∀ i, i < golden.d → golden.activation 0 i = s'.activation 1 i) ∧ 0 ≤ golden.radicand 0 ∧ 3 < golden.d :=
  ⟨rfl, rfl, by decide, by decide, by decide, by decide, by decide, by decide, by decide⟩
theorem witness_RnFwdReadsOnlyFootprint :
    let s' : State := { golden with res := 7, ymem := [(5, 3)], wmem := [(0, 5)], xmem := golden.xmem ++ [(7, 9)] }
    exec .rnFwd golden = .next (rnDone golden) ∧ exec .rnFwd s' = .next (rnDone s') ∧
    (rnDone golden).status.code = .ok ∧ 0 ≤ golden.epsilon ∧
    (∀ i, i < golden.d → golden.qmemAt i = s'.qmemAt i) ∧
    (∀ i, i < golden.b * golden.d → golden.xmemAt i = s'.xmemAt i) :=
  ⟨rfl, rfl, by decide, by decide, by decide, by decide⟩
theorem witness_IsqrtCommandResult :
    0 ≤ (withOpa 0).opa.toInt ∧ 0 ≤ (withOpa (2 ^ 63 - 1)).opa.toInt ∧ (withOpa (-1)).opa.toInt < 0 := by decide

theorem witness_CodesOfEachCommand : ∃ t, exec .rnFwd fresh = .next t ∧ t.status.code = .errNoLayer :=
  ⟨_, rfl, by decide⟩
/-- A failing command and a failing illegal word. -/
theorem witness_FailureChangesOnlyCode :
    (∃ t, step (fresh.given (.regWrite 0x00 ⟨32, 3⟩)) = .next t ∧ t.status.code ≠ .ok) ∧
    ∃ t, step (fresh.given (.regWrite 0x00 ⟨32, 0x107⟩)) = .next t ∧ t.status.code ≠ .ok :=
  ⟨⟨_, rfl, by decide⟩, ⟨_, rfl, by decide⟩⟩
/-- Both BUILDs fail in a state with the invariant: a weight of 2, and N_DIM = 0. -/
theorem witness_FailingBuildLeavesNoLayer :
    let s : State := { staged with wmem := [(0, 0x01), (1, 0x02), (2, 0x00), (3, 0x01)] }
    s.Inv ∧ (∃ t, exec .blBuild s = .next t ∧ t.status.code ≠ .ok) ∧
      ∃ t, exec .rnBuild s = .next t ∧ t.status.code ≠ .ok :=
  ⟨{ sizes_wf := by decide
     memory := by constructor <;> decide
     bl := fun h => absurd h (by decide)
     rn := fun h => absurd h (by decide) }, ⟨_, rfl, by decide⟩, ⟨_, rfl, by decide⟩⟩
theorem witness_ForwardWritesOnlyOutput :
    (exec .blFwd batch = .next (tmmDone batch) ∧ batch.ymem.wf ∧ (tmmDone batch).freeCount = batch.freeCount) ∧
    (exec .rnFwd golden = .next (rnDone golden) ∧ golden.ymem.wf ∧ (rnDone golden).freeCount = golden.freeCount) :=
  ⟨⟨rfl, by decide, by decide⟩, ⟨rfl, by decide, by decide⟩⟩
theorem witness_CommandsKeepInputs : ∃ t, exec .isqrt (withOpa 4) = .next t ∧ t.res = 2 := ⟨_, rfl, by decide⟩
theorem witness_OnlyDiagnosticsWriteRes :
    (∃ t, exec .clamp8 (withOpa 4) = .next t) ∧ ∃ t, exec .blFwd batch = .next t := ⟨⟨_, rfl⟩, ⟨_, rfl⟩⟩
theorem witness_UnitsIndependent :
    (∃ t, exec .blFwd batch = .next t) ∧ ∃ t, exec .rnFwd golden = .next t := ⟨⟨_, rfl⟩, ⟨_, rfl⟩⟩

/-- The last index of each space. -/
theorem witness_ElementWrites :
    15 < fresh.sizes.wmem ∧ 7 < fresh.sizes.xmem ∧ 7 < fresh.sizes.ymem ∧ 3 < fresh.sizes.qmem := by decide
theorem witness_ElementReads :
    let s : State := { fresh with wmem := [(15, 1)], xmem := [(7, 2)], ymem := [(7, 3)], qmem := [(3, 4)] }
    (15 < s.sizes.wmem ∧ s.wmem.read 15 = some 1) ∧ (7 < s.sizes.xmem ∧ s.xmem.read 7 = some 2) ∧
    (7 < s.sizes.ymem ∧ s.ymem.read 7 = some 3) ∧ (3 < s.sizes.qmem ∧ s.qmem.read 3 = some 4) := by decide
theorem witness_UnwrittenReadGoesOn : 3 < fresh.sizes.ofSpace .qmem ∧ fresh.qmem.read 3 = none := by decide
theorem witness_ReadAfterWrite :
    (∃ t, step (fresh.given (.memWrite Space.xmem.id 7 ⟨Space.xmem.width, 0x80#8⟩)) = .next t) ∧
    ∃ t, step (fresh.given (.memWrite Space.qmem.id 3 ⟨Space.qmem.width, 5#32⟩)) = .next t := ⟨⟨_, rfl⟩, ⟨_, rfl⟩⟩
theorem witness_OutsideTheMapStops :
    10 < 0x0B ∧ 3 < 4 ∧ fresh.sizes.ofSpace .wmem ≤ 16 ∧
    (⟨32, 0⟩ : Pattern).width ≠ Reg.eps.width ∧
    (3 < fresh.sizes.ofSpace .qmem ∧ (⟨8, 0⟩ : Pattern).width ≠ Space.qmem.width) := by decide
theorem witness_LdgridIsRowMajor :
    gridCols [[1, 2], [3, 4]] = some 2 ∧ (scriptLdgrid .xmem [[1, 2], [3, 4]]).isSome = true ∧
    ([[1, 2], [3, 4]] : List (List Int))[1]? = some [3, 4] ∧ ([3, 4] : List Int)[1]? = some 4 := by decide

theorem witness_StepKeepsInvariant :
    State.Inv (batch.given (.regWrite 0 ⟨32, 2⟩)) ∧
    ∃ t, step (batch.given (.regWrite 0 ⟨32, 2⟩)) = .next t ∧ t.status.code = .ok :=
  ⟨{ sizes_wf := by decide
     memory := by constructor <;> decide
     bl := fun _ => { cols_le := by decide, fits := by decide, legal := by decide }
     rn := fun h => absurd h (by decide) }, _, rfl, by decide⟩
theorem witness_HostInsideTheMapNeverStops :
    State.HostWf { golden with inputs := [.transaction (.regWrite 0 ⟨32, 4⟩), .transaction (.memRead 2 7 8), .reset] } := by
  decide
theorem witness_SizesNeverChange : ∃ t, step (fresh.given (.regWrite 2 ⟨32, 5⟩)) = .next t ∧ t.wRows = 5 :=
  ⟨_, rfl, by decide⟩
/-- A parameter write that clears each flag. -/
theorem witness_FlagClearedOnlyByItsUnit :
    (∃ t, step (layered.given (.regWrite 3 ⟨32, 4⟩)) = .next t ∧ layered.status.blValid = true ∧
      t.status.blValid = false) ∧
    ∃ t, step (golden.given (.memWrite 3 0 ⟨32, 1⟩)) = .next t ∧ golden.status.rnValid = true ∧
      t.status.rnValid = false :=
  ⟨⟨_, rfl, by decide, by decide⟩, ⟨_, rfl, by decide, by decide⟩⟩
theorem witness_FlagSetOnlyByItsBuild :
    (∃ t, step (staged.given (.regWrite 0 ⟨32, 1⟩)) = .next t ∧ staged.status.blValid = false ∧
      t.status.blValid = true) ∧
    ∃ t, step ((golden.setRnValid false).given (.regWrite 0 ⟨32, 3⟩)) = .next t ∧ t.status.rnValid = true :=
  ⟨⟨_, rfl, by decide, by decide⟩, ⟨_, rfl, by decide⟩⟩
theorem witness_LayerImmutableWhileValid :
    (∃ t, step (batch.given (.regWrite 0 ⟨32, 2⟩)) = .next t ∧ batch.status.blValid = true ∧
      t.status.blValid = true) ∧
    ∃ t, step (golden.given (.regWrite 0 ⟨32, 4⟩)) = .next t ∧ golden.status.rnValid = true ∧
      t.status.rnValid = true :=
  ⟨⟨_, rfl, by decide, by decide⟩, ⟨_, rfl, by decide, by decide⟩⟩
theorem witness_ResetEventGivesResetState : ({ golden with inputs := [.reset] } : State).inputs = .reset :: [] := rfl
theorem witness_EngineIdlesWithoutHost : golden.inputs = [] := rfl

end Sys2Proof.Tests
end

section
/-! PROOFS. The statements of spec/00_scope.md: the arithmetic primitives (R16, R18), the capacities that no step changes
(R9, R23) and the independence of the two units (R2). -/

namespace Sys2Proof.Machine

/-! ### The arithmetic right shift (R16) -/

/-- The shift is the one integer between its two bounds. -/
theorem asr_eq_iff (v q : Int) (k : Nat) : asr v k = q ↔ q * 2 ^ k ≤ v ∧ v < (q + 1) * 2 ^ k := by
  rw [asr_eq_div, Int.ediv_eq_iff_of_pos (by positivity), add_one_mul]

theorem asr_bounds (v : Int) (k : Nat) : asr v k * 2 ^ k ≤ v ∧ v < (asr v k + 1) * 2 ^ k :=
  (asr_eq_iff v _ k).1 rfl

/-- A value that the shift empties leaves its sign only. -/
theorem asr_of_abs_lt {v : Int} {k : Nat} (h : |v| < 2 ^ k) : asr v k = if 0 ≤ v then 0 else -1 := by
  obtain ⟨hlow, hhigh⟩ := abs_lt.1 h
  split <;> rw [asr_eq_iff] <;> constructor <;> linarith

theorem asr_neg_one (k : Nat) : asr (-1) k = -1 := by
  have hpow : (1 : Int) ≤ 2 ^ k := one_le_pow₀ (by norm_num)
  rw [asr_eq_iff]
  constructor <;> linarith

@[simp] theorem asr_shift_zero (v : Int) : asr v 0 = v := by simp [asr_eq_iff]

/-- Settles O6: each value of the shift follows from the two bounds that characterise it. -/
theorem arithmeticShiftFloors : Obligations.ArithmeticShiftFloors :=
  ⟨asr_bounds, fun _ _ => asr_of_abs_lt, asr_neg_one, asr_shift_zero, by decide, by decide⟩

/-! ### The truncating division (R18) -/

theorem abs_tdiv (a b : Int) : |tdiv a b| = |a| / |b| := by
  rw [tdiv, Int.abs_eq_natAbs, Int.natAbs_tdiv, Int.abs_eq_natAbs, Int.abs_eq_natAbs]
  exact Int.natCast_ediv _ _

/-- A quotient that is not 0 has the sign of the product. -/
theorem sign_tdiv_of_ne_zero {a b : Int} (h : tdiv a b ≠ 0) : (tdiv a b).sign = (a * b).sign := by
  have hsign := Int.sign_tdiv a b
  split at hsign
  · exact absurd (Int.sign_eq_zero_iff_zero.1 hsign) h
  · rw [tdiv, hsign, Int.sign_mul]

theorem tdiv_pos_iff {a b : Int} (hb : b ≠ 0) (h : tdiv a b ≠ 0) : 0 < tdiv a b ↔ (0 < a ↔ 0 < b) := by
  have ha : a ≠ 0 := by
    rintro rfl
    exact h (Int.zero_tdiv b)
  rw [← Int.sign_pos_iff, sign_tdiv_of_ne_zero h, Int.sign_pos_iff, mul_pos_iff]
  omega

/-- Settles O7: the magnitude is that of the library's division, the sign that of the product. -/
theorem divisionTruncates : Obligations.DivisionTruncates :=
  fun a b hb => ⟨abs_tdiv a b, tdiv_pos_iff hb⟩

/-! ### The capacities (R9, R23) -/

@[simp] theorem tmmDone_sizes (s : State) : (tmmDone s).sizes = s.sizes := rfl
@[simp] theorem rnDone_sizes (s : State) : (rnDone s).sizes = s.sizes := rfl

@[simp] theorem writeReg32_sizes (s : State) (r : Reg) (v : Word) : (s.writeReg32 r v).sizes = s.sizes := by
  cases r <;> rfl

@[simp] theorem writeReg64_sizes (s : State) (r : Reg) (v : DWord) : (s.writeReg64 r v).sizes = s.sizes := by
  cases r <;> rfl

@[simp] theorem writeSpace_sizes (s : State) (sp : Space) (i : Nat) (p : Pattern) :
    (s.writeSpace sp i p).sizes = s.sizes := by
  cases sp <;> rfl

theorem exec_sizes {i : Instr} {s t : State} (h : exec i s = .next t) : t.sizes = s.sizes := by
  cases i with
  | nop => cases h; rfl
  | blBuild => obtain ⟨-, rfl⟩ | ⟨-, -, -, rfl⟩ | ⟨-, -, -, rfl⟩ := execBlBuild_cases h <;> simp
  | blFwd =>
    obtain ⟨-, rfl⟩ | ⟨-, -, rfl⟩ | ⟨-, -, -, rfl⟩ | ⟨-, -, -, -, rfl⟩ := execBlFwd_cases h <;> simp
  | rnBuild => obtain ⟨-, rfl⟩ | ⟨-, -, -, rfl⟩ := execRnBuild_cases h <;> simp
  | rnFwd =>
    obtain ⟨-, rfl⟩ | ⟨-, -, rfl⟩ | ⟨-, -, -, rfl⟩ | ⟨-, -, -, -, rfl⟩ := execRnFwd_cases h <;> simp
  | isqrt => obtain ⟨-, rfl⟩ | ⟨-, rfl⟩ := execIsqrt_cases h <;> simp
  | clamp8 => cases h; rfl

theorem effect_sizes {s t : State} {e : Event} (h : Effect s e t) : t.sizes = s.sizes := by
  cases h with
  | command w i t _ hexec => exact exec_sizes hexec
  | _ => simp

/-- Settles O53, by cases on what the step did. -/
theorem sizesNeverChange : Obligations.SizesNeverChange := by
  intro s t h
  obtain ⟨-, rfl⟩ | ⟨e, rest, -, heffect⟩ := step_cases h
  · rfl
  · simpa using effect_sizes heffect

/-! ### The independence of the two units (R2)

Replacing the state of one unit commutes with every command of the other: the tests of the command read the same values,
and its next state is the same update of the replaced state. -/

/-- A forward of the TMM unit whose tests all pass. -/
theorem execBlFwd_of_fits {s : State} (hvalid : s.status.blValid = true) (hshape : s.xc = s.c)
    (hx : s.b * s.c ≤ s.sizes.xmem) (hy : s.b * s.r ≤ s.sizes.ymem) : execBlFwd s = .next (tmmDone s) := by
  simp [execBlFwd, tmmDone, hvalid, hshape, hx.not_gt, hy.not_gt]

/-- A forward of the RMSN unit whose tests all pass. -/
theorem execRnFwd_of_fits {s : State} (hvalid : s.status.rnValid = true) (hshape : s.xc = s.d)
    (hx : s.b * s.d ≤ s.sizes.xmem) (hy : s.b * s.d ≤ s.sizes.ymem) : execRnFwd s = .next (rnDone s) := by
  simp [execRnFwd, rnDone, hvalid, hshape, hx.not_gt, hy.not_gt]

/-- The state with the RMSN unit's own registers, memory and flag replaced. -/
def State.withRmsn (s : State) (n : Word) (e : DWord) (q : Mem 32) (v : Bool) : State :=
  { s with nDim := n, eps := e, qmem := q, status := { s.status with rnValid := v } }

/-- The state with the TMM unit's own registers, memory and flag replaced. -/
def State.withTmm (s : State) (r c k : Word) (m : Mem 8) (v : Bool) : State :=
  { s with wRows := r, wCols := c, shift := k, wmem := m, status := { s.status with blValid := v } }

section
variable {s t : State} (n : Word) (e : DWord) (q : Mem 32) (v : Bool)

@[simp] theorem withRmsn_sizes : (s.withRmsn n e q v).sizes = s.sizes := rfl
@[simp] theorem withRmsn_blValid : (s.withRmsn n e q v).status.blValid = s.status.blValid := rfl
@[simp] theorem withRmsn_r : (s.withRmsn n e q v).r = s.r := rfl
@[simp] theorem withRmsn_c : (s.withRmsn n e q v).c = s.c := rfl
@[simp] theorem withRmsn_b : (s.withRmsn n e q v).b = s.b := rfl
@[simp] theorem withRmsn_xc : (s.withRmsn n e q v).xc = s.xc := rfl
@[simp] theorem withRmsn_weightsLegal : (s.withRmsn n e q v).weightsLegal = s.weightsLegal := rfl
@[simp] theorem withRmsn_setCode (k : Code) : (s.withRmsn n e q v).setCode k = (s.setCode k).withRmsn n e q v := rfl
@[simp] theorem withRmsn_setBlValid (f : Bool) :
    (s.withRmsn n e q v).setBlValid f = (s.setBlValid f).withRmsn n e q v := rfl

/-- The grid that BL.FWD stores reads nothing of the RMSN unit. -/
theorem tmmDone_withRmsn : tmmDone (s.withRmsn n e q v) = (tmmDone s).withRmsn n e q v := rfl

theorem execBlBuild_withRmsn (h : execBlBuild s = .next t) :
    execBlBuild (s.withRmsn n e q v) = .next (t.withRmsn n e q v) := by
  obtain ⟨hdim, rfl⟩ | ⟨hcols, hfits, hlegal, rfl⟩ | ⟨hcols, hfits, hlegal, rfl⟩ := execBlBuild_cases h
  · simp [execBlBuild, hdim]
  · simp [execBlBuild, hcols.not_gt, hfits.not_gt, hlegal]
  · simp [execBlBuild, hcols.not_gt, hfits.not_gt, hlegal]

theorem execBlFwd_withRmsn (h : execBlFwd s = .next t) :
    execBlFwd (s.withRmsn n e q v) = .next (t.withRmsn n e q v) := by
  obtain ⟨hvalid, rfl⟩ | ⟨hvalid, hshape, rfl⟩ | ⟨hvalid, hshape, hdim, rfl⟩ | ⟨hvalid, hshape, hx, hy, rfl⟩ :=
    execBlFwd_cases h
  · simp [execBlFwd, hvalid]
  · simp [execBlFwd, hvalid, hshape]
  · simp [execBlFwd, hvalid, hshape, hdim]
  · rw [← tmmDone_withRmsn]
    exact execBlFwd_of_fits hvalid hshape hx hy

end

section
variable {s t : State} (r c k : Word) (m : Mem 8) (v : Bool)

@[simp] theorem withTmm_sizes : (s.withTmm r c k m v).sizes = s.sizes := rfl
@[simp] theorem withTmm_rnValid : (s.withTmm r c k m v).status.rnValid = s.status.rnValid := rfl
@[simp] theorem withTmm_d : (s.withTmm r c k m v).d = s.d := rfl
@[simp] theorem withTmm_b : (s.withTmm r c k m v).b = s.b := rfl
@[simp] theorem withTmm_xc : (s.withTmm r c k m v).xc = s.xc := rfl
@[simp] theorem withTmm_setCode (code : Code) :
    (s.withTmm r c k m v).setCode code = (s.setCode code).withTmm r c k m v := rfl
@[simp] theorem withTmm_setRnValid (f : Bool) :
    (s.withTmm r c k m v).setRnValid f = (s.setRnValid f).withTmm r c k m v := rfl

/-- The grid that RN.FWD stores, free values included, reads nothing of the TMM unit. -/
theorem rnDone_withTmm : rnDone (s.withTmm r c k m v) = (rnDone s).withTmm r c k m v := rfl

theorem execRnBuild_withTmm (h : execRnBuild s = .next t) :
    execRnBuild (s.withTmm r c k m v) = .next (t.withTmm r c k m v) := by
  obtain ⟨hdim, rfl⟩ | ⟨hpos, hmax, hfits, rfl⟩ := execRnBuild_cases h
  · simp [execRnBuild, hdim]
  · simp [execRnBuild, Nat.ne_of_gt hpos, hmax.not_gt, hfits.not_gt]

theorem execRnFwd_withTmm (h : execRnFwd s = .next t) :
    execRnFwd (s.withTmm r c k m v) = .next (t.withTmm r c k m v) := by
  obtain ⟨hvalid, rfl⟩ | ⟨hvalid, hshape, rfl⟩ | ⟨hvalid, hshape, hdim, rfl⟩ | ⟨hvalid, hshape, hx, hy, rfl⟩ :=
    execRnFwd_cases h
  · simp [execRnFwd, hvalid]
  · simp [execRnFwd, hvalid, hshape]
  · simp [execRnFwd, hvalid, hshape, hdim]
  · rw [← rnDone_withTmm]
    exact execRnFwd_of_fits hvalid hshape hx hy

end

/-- Settles O40, command by command of each unit. -/
theorem unitsIndependent : Obligations.UnitsIndependent := by
  intro i s t h
  constructor
  · rintro (rfl | rfl) n e q v
    · exact execBlBuild_withRmsn n e q v h
    · exact execBlFwd_withRmsn n e q v h
  · rintro (rfl | rfl) r c k m v
    · exact execRnBuild_withTmm r c k m v h
    · exact execRnFwd_withTmm r c k m v h

end Sys2Proof.Machine
end

section
/-! PROOFS. The statements of spec/10_state.md about single pieces of the state: the STATUS word (R28), the command that
a CMD write runs (R25, R27), what no command reads (R35), the two forwards (R42), the state after reset (R44) and reads
of unwritten elements (R45). -/

namespace Sys2Proof.Machine

/-! ### The STATUS word (R28) -/

/-- The STATUS word bit by bit: what stands at each place of it. -/
theorem statusWord_getLsbD (st : Status) (i : Nat) :
    st.word.getLsbD i = if i < 4 then st.code.number.getLsbD i else
      if i = 8 then st.blValid else if i = 9 then st.rnValid else false := by
  change ((0 : BitVec 22) ++ BitVec.ofBool st.rnValid ++ BitVec.ofBool st.blValid ++ (0 : BitVec 4) ++
    st.code.number : BitVec (22 + 1 + 1 + 4 + 4)).getLsbD i = _
  simp only [BitVec.getLsbD_append, BitVec.ofNat_eq_ofNat, BitVec.getLsbD_zero, BitVec.getLsbD_ofBool]
  by_cases h4 : i < 4
  · simp [h4]
  by_cases h8 : i < 8
  · simp [h4, show i - 4 < 4 by omega, show i ≠ 8 by omega, show i ≠ 9 by omega]
  obtain ⟨k, rfl⟩ := Nat.exists_eq_add_of_le' (not_lt.1 h8)
  match k with
  | 0 => simp
  | 1 => simp
  | k + 2 => simp

theorem statusWord_code (st : Status) : st.word.extractLsb' 0 4 = st.code.number := by
  ext i hi
  simp only [BitVec.getElem_extractLsb', statusWord_getLsbD, zero_add, hi, if_true, BitVec.getLsbD_eq_getElem]

/-- A field of the STATUS word that holds neither CODE nor a valid flag reads 0. -/
theorem statusWord_zero (st : Status) {start len : Nat} (hlow : 4 ≤ start) (hflags : start + len ≤ 8 ∨ 10 ≤ start) :
    st.word.extractLsb' start len = 0 := by
  ext i hi
  rw [BitVec.getElem_extractLsb', statusWord_getLsbD, if_neg (by omega), if_neg (by omega), if_neg (by omega)]
  simp

/-- Settles O43: the fields are read off the word bit by bit. -/
theorem statusWordFields : Obligations.StatusWordFields :=
  ⟨fun st => ⟨statusWord_code st, statusWord_zero st (by omega) (by omega), statusWord_getLsbD st 8,
    statusWord_getLsbD st 9, statusWord_zero st (by omega) (by omega)⟩, rfl, rfl, rfl, rfl, rfl, rfl⟩

/-! ### The word of a command (30_encoding R76, R77) -/

/-- A word that decodes to a command has a ZERO field of 0 and the command's OPC value (R76, R77). -/
theorem fields_of_decode {w : Word} {i : Instr} (h : decode w = .ok i) : zeroField w = 0 ∧ opcField w = i.opc := by
  unfold decode at h
  by_cases hzero : zeroField w = 0
  · rw [if_neg (not_not.2 hzero)] at h
    refine ⟨hzero, BitVec.eq_of_toNat_eq ?_⟩
    dsimp only at h
    split_ifs at h <;> cases h <;> assumption
  · rw [if_pos hzero] at h
    cases h

/-- A word is its two fields (R76). -/
theorem zeroField_append_opcField (w : Word) : zeroField w ++ opcField w = w :=
  calc
    zeroField w ++ opcField w = w.extractLsb' 0 32 := BitVec.extractLsb'_append_extractLsb'_eq_extractLsb' rfl
    _ = w := BitVec.extractLsb'_eq_self

/-- A word that decodes to a command is that command's word. -/
theorem eq_encode_of_decode {w : Word} {i : Instr} (h : decode w = .ok i) : w = encode i := by
  obtain ⟨hzero, hopc⟩ := fields_of_decode h
  rw [← zeroField_append_opcField w, hzero, hopc, encode]

/-! ### The step on a given event (R25, R27) -/

theorem step_of_inputs {s : State} {e : Event} {rest : List Event} (h : s.inputs = e :: rest) :
    step s = handle e { s with inputs := rest } := by
  simp only [step, advance, h]

theorem step_given (s : State) (x : Transaction) : step (s.given x) = transact x s := rfl

theorem handle_commandEvent (w : Word) (s : State) : handle (commandEvent w) s = writeCmd w s := by
  simp [handle, commandEvent, transact, regWrite, Reg.width]

theorem writeCmd_of_decode {w : Word} {i : Instr} (h : decode w = .ok i) (s : State) : writeCmd w s = exec i s := by
  simp only [writeCmd, h]

theorem decode_of_decodeTableWord {nbits w : Nat} {i : Instr} (h : decodeTableWord nbits w = some i) :
    decode (BitVec.ofNat 32 (w % 2 ^ nbits)) = .ok i := by
  unfold decodeTableWord at h
  split at h
  · cases h
    assumption
  · cases h

/-- Settles O4: the write of a command word to CMD decodes it and runs the command. -/
theorem stepRunsDecodedCommand : Obligations.StepRunsDecodedCommand := by
  intro s w rest i hinputs hdecode
  rw [step_of_inputs hinputs, handle_commandEvent, writeCmd_of_decode hdecode]

/-- Settles O5: the placed word stands at the front of the host's events, and taking it off gives the state back. -/
theorem stepRunsFetchWord : Obligations.StepRunsFetchWord :=
  fun s _ _ _ h => stepRunsDecodedCommand _ _ s.inputs _ rfl (decode_of_decodeTableWord h)

/-! ### No command reads CODE (R35) -/

/-- The tests and the results of every command leave CODE aside, and each command ends by overwriting it. -/
theorem exec_setCode (i : Instr) (s : State) (k : Code) : exec i (s.setCode k) = exec i s := by
  cases i <;> rfl

/-- Settles O36, by cases on the command. -/
theorem earlierCodeDoesNotMatter : Obligations.EarlierCodeDoesNotMatter :=
  exec_setCode

/-! ### The forward commands (R42) -/

/-- The next state of an RN.FWD that drew no free value. -/
theorem rnDone_of_rnDefined {s : State} (h : s.rnDefined = true) :
    rnDone s = ({ s with ymem := s.ymem.writeFrom 0 s.rnGrid } : State).setCode .ok := by
  simp [rnDone, h]

theorem rnDefined_of_rnDone_freeCount {s : State} (h : (rnDone s).freeCount = s.freeCount) : s.rnDefined = true := by
  by_contra hundef
  simp [rnDone, hundef] at h

/-- The output of BL.FWD is no operand of it: storing it again stores the same. -/
theorem tmmDone_tmmDone {s : State} (h : s.ymem.wf) : tmmDone (tmmDone s) = tmmDone s := by
  have hgrid : (tmmDone s).tmmGrid = s.tmmGrid := rfl
  have hstored : (tmmDone s).ymem.writeFrom 0 s.tmmGrid = (tmmDone s).ymem := mem_writeFrom_writeFrom _ _ _ h
  rw [tmmDone, hgrid, hstored]
  rfl

/-- The output of RN.FWD is no operand of it: where no free value is drawn, storing it again stores the same. -/
theorem rnDone_rnDone {s : State} (h : s.ymem.wf) (hdefined : s.rnDefined = true) : rnDone (rnDone s) = rnDone s := by
  have hdefined' : (rnDone s).rnDefined = true := hdefined
  have hgrid : (rnDone s).rnGrid = s.rnGrid := by
    rw [rnDone_of_rnDefined hdefined]
    rfl
  have hstored : (rnDone s).ymem.writeFrom 0 s.rnGrid = (rnDone s).ymem := mem_writeFrom_writeFrom _ _ _ h
  rw [rnDone_of_rnDefined hdefined', hgrid, hstored]
  rfl

/-- What a forward changes. -/
def State.OutputOnly (s t : State) : Prop :=
  t = { s with ymem := t.ymem, freeCount := t.freeCount, status := { s.status with code := t.status.code } }

theorem outputOnly_setCode (s : State) (k : Code) : s.OutputOnly (s.setCode k) := rfl
theorem outputOnly_tmmDone (s : State) : s.OutputOnly (tmmDone s) := rfl
theorem outputOnly_rnDone (s : State) : s.OutputOnly (rnDone s) := rfl

/-- BL.FWD fails, which changes CODE, or stores its output and leaves a state on which its tests pass again. -/
theorem execBlFwd_next {s t : State} (h : execBlFwd s = .next t) :
    (∃ k, t = s.setCode k) ∨ (t = tmmDone s ∧ s.b * s.r ≤ s.sizes.ymem ∧ execBlFwd t = .next (tmmDone t)) := by
  obtain ⟨-, rfl⟩ | ⟨-, -, rfl⟩ | ⟨-, -, -, rfl⟩ | ⟨hvalid, hshape, hx, hy, rfl⟩ := execBlFwd_cases h
  · exact .inl ⟨_, rfl⟩
  · exact .inl ⟨_, rfl⟩
  · exact .inl ⟨_, rfl⟩
  · exact .inr ⟨rfl, hy, execBlFwd_of_fits (s := tmmDone s) hvalid hshape hx hy⟩

/-- RN.FWD fails, which changes CODE, or stores its output and leaves a state on which its tests pass again. -/
theorem execRnFwd_next {s t : State} (h : execRnFwd s = .next t) :
    (∃ k, t = s.setCode k) ∨ (t = rnDone s ∧ s.b * s.d ≤ s.sizes.ymem ∧ execRnFwd t = .next (rnDone t)) := by
  obtain ⟨-, rfl⟩ | ⟨-, -, rfl⟩ | ⟨-, -, -, rfl⟩ | ⟨hvalid, hshape, hx, hy, rfl⟩ := execRnFwd_cases h
  · exact .inl ⟨_, rfl⟩
  · exact .inl ⟨_, rfl⟩
  · exact .inl ⟨_, rfl⟩
  · exact .inr ⟨rfl, hy, execRnFwd_of_fits (s := rnDone s) hvalid hshape hx hy⟩

/-- Settles O37: a failure changes CODE, which no command reads; a success stores a grid independent of YMEM. -/
theorem forwardWritesOnlyOutput : Obligations.ForwardWritesOnlyOutput := by
  rintro i s t (rfl | rfl) h
  · obtain ⟨k, rfl⟩ | ⟨rfl, -, hagain⟩ := execBlFwd_next h
    · exact ⟨outputOnly_setCode s k, fun _ _ => (exec_setCode _ s k).trans h⟩
    · exact ⟨outputOnly_tmmDone s, fun hwf _ => hagain.trans (congrArg _ (tmmDone_tmmDone hwf))⟩
  · obtain ⟨k, rfl⟩ | ⟨rfl, -, hagain⟩ := execRnFwd_next h
    · exact ⟨outputOnly_setCode s k, fun _ _ => (exec_setCode _ s k).trans h⟩
    · exact ⟨outputOnly_rnDone s, fun hwf hcount =>
        hagain.trans (congrArg _ (rnDone_rnDone hwf (rnDefined_of_rnDone_freeCount hcount)))⟩

/-! ### The state after reset (R44) -/

/-- A machine with nothing written and no layer has the invariant as soon as its sizes are as R9 constrains them. -/
theorem inv_of_empty {s : State} (hsizes : s.sizes.wf = true) (hwmem : s.wmem = []) (hxmem : s.xmem = [])
    (hymem : s.ymem = []) (hqmem : s.qmem = []) (hbl : s.status.blValid = false) (hrn : s.status.rnValid = false) :
    s.Inv where
  sizes_wf := hsizes
  memory := by constructor <;> simp [Mem.wf, Mem.within, hwmem, hxmem, hymem, hqmem]
  bl h := absurd h (by simp [hbl])
  rn h := absurd h (by simp [hrn])

theorem config_sizes_wf : Config.sizes.wf = true := by simp [Config.Sizes.wf, Config.sizes]

/-- Settles O51: after reset nothing is written and no layer exists. -/
theorem resetHasInvariant : Obligations.ResetHasInvariant :=
  inv_of_empty config_sizes_wf rfl rfl rfl rfl rfl rfl

/-- Settles O57: each register by its value in the reset state, STATUS by its word. -/
theorem resetLeavesRegistersZero : Obligations.ResetLeavesRegistersZero := by
  have hword : State.reset.status.word = 0 := by
    rw [reset_eq_resetOf, resetOf_status]
    decide
  exact ⟨hword, rfl, rfl, rfl, rfl, rfl, rfl, rfl, rfl, rfl, fun _ => ⟨rfl, rfl, rfl, rfl⟩⟩

/-! ### Reads of elements (R45) -/

/-- The value a `MemRead` returns has the width of the space. -/
theorem spaceAt_eq (s : State) (sp : Space) (i : Nat) : ∃ v : BitVec sp.width, s.spaceAt sp i = ⟨sp.width, v⟩ := by
  cases sp <;> exact ⟨_, rfl⟩

/-- A read inside the map goes on, whether the element was written or not. -/
theorem memRead_of_lt {s : State} {sp : Space} {i : Nat} (h : i < s.sizes.ofSpace sp) :
    memRead sp.id i sp.width s = .next (s.deliver (s.spaceAt sp i)) := by
  simp [memRead, h.not_ge]

/-- Settles O46: the read goes on with the element's value, a written or a free one. -/
theorem unwrittenReadGoesOn : Obligations.UnwrittenReadGoesOn := by
  intro s sp i hi
  obtain ⟨v, hv⟩ := spaceAt_eq s sp i
  refine ⟨v, ?_⟩
  rw [step_given, transact, memRead_of_lt hi, hv]
  rfl

end Sys2Proof.Machine
end

section
/-! PROOFS. The statements of spec/10_state.md about the two layers and their valid flags (R31, R32, R35) and about the
invariant (R31, R32, R37). Both units obey one law, said once for either unit: an event leaves the layer and its flag
alone, or destroys the layer, or is the BUILD that makes it (`effect_layerFate`). -/

namespace Sys2Proof.Machine

/-! ### The two units that hold a layer -/

/-- A unit that holds a layer: TMM or RMSN (R31). -/
inductive LayerUnit where
  | tmm | rmsn

/-- The command that makes the unit's layer (R35). -/
def LayerUnit.build : LayerUnit → Instr
  | .tmm => .blBuild
  | .rmsn => .rnBuild

/-- The parameter registers of the unit (R29, R30). -/
def LayerUnit.registers : LayerUnit → List Reg
  | .tmm => [.wRows, .wCols, .shift]
  | .rmsn => [.nDim, .eps]

/-- The parameter memory of the unit (R38, R39). -/
def LayerUnit.memory : LayerUnit → Space
  | .tmm => .wmem
  | .rmsn => .qmem

/-- A host write to a parameter of the unit (R32). -/
inductive LayerUnit.ParameterWrite (u : LayerUnit) : Event → Prop
  | register (r : Reg) (v : Pattern) : r ∈ u.registers → u.ParameterWrite (.transaction (.regWrite r.number v))
  | element (i : Nat) (p : Pattern) : u.ParameterWrite (.transaction (.memWrite u.memory.id i p))

/-- The unit's valid flag (R31). -/
def State.valid (s : State) : LayerUnit → Bool
  | .tmm => s.status.blValid
  | .rmsn => s.status.rnValid

/-- What the unit's flag at 1 stands for (R31). -/
def State.Layer (s : State) : LayerUnit → Prop
  | .tmm => s.BlLayer
  | .rmsn => s.RnLayer

/-- The unit's parameters are the same in the second state. -/
def State.SameParameters (s t : State) : LayerUnit → Prop
  | .tmm => t.wRows = s.wRows ∧ t.wCols = s.wCols ∧ t.shift = s.shift ∧ t.wmem = s.wmem
  | .rmsn => t.nDim = s.nDim ∧ t.eps = s.eps ∧ t.qmem = s.qmem

variable {s t : State} {u : LayerUnit} {i : Instr} {e : Event}

theorem sameParameters_refl (s : State) (u : LayerUnit) : s.SameParameters s u := by
  cases u
  · exact ⟨rfl, rfl, rfl, rfl⟩
  · exact ⟨rfl, rfl, rfl⟩

/-- A layer lies in the unit's parameters, the sizes and, for unwritten weights, the epoch. -/
theorem layer_of_sameParameters (hsame : s.SameParameters t u) (hsizes : t.sizes = s.sizes)
    (hepoch : t.epoch = s.epoch) (h : s.Layer u) : t.Layer u := by
  cases u with
  | tmm =>
    obtain ⟨hrows, hcols, -, hwmem⟩ := hsame
    have hr : t.r = s.r := congrArg zext hrows
    have hc : t.c = s.c := congrArg zext hcols
    have hat : t.wmemAt = s.wmemAt := by
      funext k
      rw [State.wmemAt, hwmem, hepoch, State.wmemAt]
    exact { cols_le := by rw [hc]; exact h.cols_le
            fits := by rw [hr, hc, hsizes]; exact h.fits
            legal := by rw [hr, hc, hat]; exact h.legal }
  | rmsn =>
    obtain ⟨hdim, -, -⟩ := hsame
    have hd : t.d = s.d := congrArg zext hdim
    exact { pos := by rw [hd]; exact h.pos
            le_max := by rw [hd]; exact h.le_max
            fits := by rw [hd, hsizes]; exact h.fits }

/-! ### What a command writes -/

/-- All that a command can write: STATUS, RES, the model's counter of free values (log 7), and YMEM from its first
element on, inside its size (R42). -/
def State.CommandWrites (s t : State) : Prop :=
  ∃ (vs : List Byte) (v : DWord) (n : Nat) (st : Status), vs.length ≤ s.sizes.ymem ∧
    t = { s with ymem := s.ymem.writeFrom 0 vs, res := v, freeCount := n, status := st }

theorem commandWrites_status (s : State) (st : Status) : s.CommandWrites { s with status := st } :=
  ⟨[], s.res, s.freeCount, st, Nat.zero_le _, rfl⟩

theorem commandWrites_res (s : State) (v : DWord) (n : Nat) (st : Status) :
    s.CommandWrites { s with res := v, freeCount := n, status := st } :=
  ⟨[], v, n, st, Nat.zero_le _, rfl⟩

theorem commandWrites_tmmDone (h : s.b * s.r ≤ s.sizes.ymem) : s.CommandWrites (tmmDone s) :=
  ⟨s.tmmGrid, _, _, _, by rwa [tmmGrid_length], rfl⟩

theorem commandWrites_rnDone (h : s.b * s.d ≤ s.sizes.ymem) : s.CommandWrites (rnDone s) :=
  ⟨s.rnGrid, _, _, _, by rwa [rnGrid_length], rfl⟩

/-- No parameter of a unit is among what a command writes. -/
theorem commandWrites_parameters (h : s.CommandWrites t) : s.SameParameters t u ∧ t.epoch = s.epoch := by
  obtain ⟨vs, v, n, st, -, rfl⟩ := h
  exact ⟨sameParameters_refl s u, rfl⟩

theorem exec_commandWrites (h : exec i s = .next t) : s.CommandWrites t := by
  cases i with
  | nop => cases h; exact commandWrites_status s _
  | blBuild =>
    obtain ⟨-, rfl⟩ | ⟨-, -, -, rfl⟩ | ⟨-, -, -, rfl⟩ := execBlBuild_cases h <;> exact commandWrites_status s _
  | blFwd =>
    obtain ⟨k, rfl⟩ | ⟨rfl, hfits, -⟩ := execBlFwd_next h
    · exact commandWrites_status s _
    · exact commandWrites_tmmDone hfits
  | rnBuild =>
    obtain ⟨-, rfl⟩ | ⟨-, -, -, rfl⟩ := execRnBuild_cases h <;> exact commandWrites_status s _
  | rnFwd =>
    obtain ⟨k, rfl⟩ | ⟨rfl, hfits, -⟩ := execRnFwd_next h
    · exact commandWrites_status s _
    · exact commandWrites_rnDone hfits
  | isqrt => obtain ⟨-, rfl⟩ | ⟨-, rfl⟩ := execIsqrt_cases h <;> exact commandWrites_res s _ _ _
  | clamp8 => cases h; exact commandWrites_res s _ _ _

/-- No command but its BUILD changes a unit's flag (R35). -/
theorem exec_valid (h : exec i s = .next t) (hbuild : i ≠ u.build) : t.valid u = s.valid u := by
  cases i with
  | nop => cases h; rfl
  | blBuild =>
    cases u with
    | tmm => exact absurd rfl hbuild
    | rmsn => obtain ⟨-, rfl⟩ | ⟨-, -, -, rfl⟩ | ⟨-, -, -, rfl⟩ := execBlBuild_cases h <;> rfl
  | blFwd => obtain ⟨k, rfl⟩ | ⟨rfl, -⟩ := execBlFwd_next h <;> rfl
  | rnBuild =>
    cases u with
    | tmm => obtain ⟨-, rfl⟩ | ⟨-, -, -, rfl⟩ := execRnBuild_cases h <;> rfl
    | rmsn => exact absurd rfl hbuild
  | rnFwd => obtain ⟨k, rfl⟩ | ⟨rfl, -⟩ := execRnFwd_next h <;> rfl
  | isqrt => obtain ⟨-, rfl⟩ | ⟨-, rfl⟩ := execIsqrt_cases h <;> rfl
  | clamp8 => cases h; rfl

/-- A BUILD fails and leaves no layer, or ends OK with what a flag at 1 stands for (R31, R35). -/
theorem exec_build (h : exec u.build s = .next t) :
    (t.valid u = false ∧ t.status.code ≠ .ok) ∨ (t.valid u = true ∧ t.status.code = .ok ∧ t.Layer u) := by
  cases u with
  | tmm =>
    obtain ⟨-, rfl⟩ | ⟨-, -, -, rfl⟩ | ⟨hcols, hfits, hlegal, rfl⟩ := execBlBuild_cases h
    · exact .inl ⟨rfl, by simp⟩
    · exact .inl ⟨rfl, by simp⟩
    · exact .inr ⟨rfl, rfl, { cols_le := hcols, fits := hfits, legal := (weightsLegal_iff s).1 hlegal }⟩
  | rmsn =>
    obtain ⟨-, rfl⟩ | ⟨hpos, hmax, hfits, rfl⟩ := execRnBuild_cases h
    · exact .inl ⟨rfl, by simp⟩
    · exact .inr ⟨rfl, rfl, { pos := hpos, le_max := hmax, fits := hfits }⟩

/-! ### What an event does to a unit's layer (R31, R32, R35) -/

/-- What can become of a unit's layer and its flag when an event takes effect. -/
inductive LayerFate (u : LayerUnit) (s : State) (e : Event) (t : State) : Prop
  | kept : t.valid u = s.valid u → s.SameParameters t u → t.epoch = s.epoch → LayerFate u s e t
  | destroyed : t.valid u = false →
      (e = .reset ∨ (e = commandEvent (encode u.build) ∧ t.status.code ≠ .ok) ∨ u.ParameterWrite e) → LayerFate u s e t
  | built : t.valid u = true → e = commandEvent (encode u.build) → t.status.code = .ok → s.SameParameters t u →
      t.Layer u → LayerFate u s e t

theorem layerFate_command {w : Word} (hdecode : decode w = .ok i) (h : exec i s = .next t) :
    LayerFate u s (commandEvent w) t := by
  obtain rfl := eq_encode_of_decode hdecode
  obtain ⟨hsame, hepoch⟩ := commandWrites_parameters (u := u) (exec_commandWrites h)
  by_cases hi : i = u.build
  · subst hi
    obtain ⟨hvalid, hcode⟩ | ⟨hvalid, hcode, hlayer⟩ := exec_build h
    · exact .destroyed hvalid (.inr (.inl ⟨rfl, hcode⟩))
    · exact .built hvalid rfl hcode hsame hlayer
  · exact .kept (exec_valid h hi) hsame hepoch

/-- A register write destroys the layer of the unit it is a parameter of and leaves the other unit's alone. -/
theorem layerFate_writeReg32 {r : Reg} (v : Word) :
    LayerFate u s (.transaction (.regWrite r.number ⟨32, v⟩)) (s.writeReg32 r v) := by
  cases u with
  | tmm =>
    cases r with
    | wRows | wCols | shift => exact .destroyed rfl (.inr (.inr (.register _ _ (by decide))))
    | _ => exact .kept rfl (sameParameters_refl s .tmm) rfl
  | rmsn =>
    cases r with
    | nDim => exact .destroyed rfl (.inr (.inr (.register _ _ (by decide))))
    | _ => exact .kept rfl (sameParameters_refl s .rmsn) rfl

theorem layerFate_writeReg64 {r : Reg} (v : DWord) :
    LayerFate u s (.transaction (.regWrite r.number ⟨64, v⟩)) (s.writeReg64 r v) := by
  cases u with
  | tmm => cases r <;> exact .kept rfl (sameParameters_refl s .tmm) rfl
  | rmsn =>
    cases r with
    | eps => exact .destroyed rfl (.inr (.inr (.register _ _ (by decide))))
    | _ => exact .kept rfl (sameParameters_refl s .rmsn) rfl

/-- An element write destroys the layer of the unit whose parameter memory it falls in. -/
theorem layerFate_writeSpace (sp : Space) (k : Nat) (p : Pattern) :
    LayerFate u s (.transaction (.memWrite sp.id k p)) (s.writeSpace sp k p) := by
  cases u with
  | tmm =>
    cases sp with
    | wmem => exact .destroyed rfl (.inr (.inr (.element k p)))
    | _ => exact .kept rfl (sameParameters_refl s .tmm) rfl
  | rmsn =>
    cases sp with
    | qmem => exact .destroyed rfl (.inr (.inr (.element k p)))
    | _ => exact .kept rfl (sameParameters_refl s .rmsn) rfl

theorem layerFate_deliver (p : Pattern) : LayerFate u s e (s.deliver p) :=
  .kept rfl (by cases u <;> simp [State.SameParameters]) rfl

/-- Once everything that can become of a unit's layer. -/
theorem effect_layerFate (u : LayerUnit) (h : Effect s e t) : LayerFate u s e t := by
  cases h with
  | reset => exact .destroyed (by cases u <;> rfl) (.inl rfl)
  | command w i _ hdecode hexec => exact layerFate_command hdecode hexec
  | illegalWord w _ _ => exact .kept rfl (sameParameters_refl s u) rfl
  | writeReg32 r v _ _ => exact layerFate_writeReg32 v
  | writeReg64 r v _ => exact layerFate_writeReg64 v
  | readReg r => exact layerFate_deliver _
  | writeSpace sp k p _ => exact layerFate_writeSpace sp k _
  | readSpace sp k _ => exact layerFate_deliver _

/-- What clears a flag (R32, R35). -/
theorem effect_clears (h : Effect s e t) (hs : s.valid u = true) (ht : t.valid u = false) :
    e = .reset ∨ (e = commandEvent (encode u.build) ∧ t.status.code ≠ .ok) ∨ u.ParameterWrite e := by
  cases effect_layerFate u h with
  | kept hvalid _ _ => simp [ht, hs] at hvalid
  | destroyed _ hcause => exact hcause
  | built hvalid _ _ _ _ => simp [ht] at hvalid

/-- What sets a flag (R35). -/
theorem effect_sets (h : Effect s e t) (hs : s.valid u = false) (ht : t.valid u = true) :
    e = commandEvent (encode u.build) ∧ t.status.code = .ok := by
  cases effect_layerFate u h with
  | kept hvalid _ _ => simp [ht, hs] at hvalid
  | destroyed hvalid _ => simp [ht] at hvalid
  | built _ hevent hcode _ _ => exact ⟨hevent, hcode⟩

/-- A flag that is 1 afterwards has the parameters that it had before (R32). -/
theorem effect_sameParameters (h : Effect s e t) (ht : t.valid u = true) : s.SameParameters t u := by
  cases effect_layerFate u h with
  | kept _ hsame _ => exact hsame
  | destroyed hvalid _ => simp [ht] at hvalid
  | built _ _ _ hsame _ => exact hsame

/-- An event keeps what a flag stands for (R31). -/
theorem effect_layer (h : Effect s e t) (hlayer : s.valid u = true → s.Layer u) (ht : t.valid u = true) :
    t.Layer u := by
  cases effect_layerFate u h with
  | kept hvalid hsame hepoch => exact layer_of_sameParameters hsame (effect_sizes h) hepoch (hlayer (hvalid ▸ ht))
  | destroyed hvalid _ => simp [ht] at hvalid
  | built _ _ _ _ hbuilt => exact hbuilt

/-! ### The statements about the flags -/

theorem parameterWrite_tmm (h : LayerUnit.tmm.ParameterWrite e) :
    (∃ n v, (n = 2 ∨ n = 3 ∨ n = 4) ∧ e = .transaction (.regWrite n v)) ∨
      ∃ i p, e = .transaction (.memWrite 0 i p) := by
  cases h with
  | register r v hr =>
    refine .inl ⟨r.number, v, ?_, rfl⟩
    obtain rfl | rfl | rfl : r = .wRows ∨ r = .wCols ∨ r = .shift := by simpa [LayerUnit.registers] using hr
    all_goals decide
  | element i p => exact .inr ⟨i, p, rfl⟩

theorem parameterWrite_rmsn (h : LayerUnit.rmsn.ParameterWrite e) :
    (∃ n v, (n = 5 ∨ n = 6) ∧ e = .transaction (.regWrite n v)) ∨ ∃ i p, e = .transaction (.memWrite 3 i p) := by
  cases h with
  | register r v hr =>
    refine .inl ⟨r.number, v, ?_, rfl⟩
    obtain rfl | rfl : r = .nDim ∨ r = .eps := by simpa [LayerUnit.registers] using hr
    all_goals decide
  | element i p => exact .inr ⟨i, p, rfl⟩

theorem effect_of_step {rest : List Event} (hinputs : s.inputs = e :: rest) (h : step s = .next t) :
    Effect { s with inputs := rest } e t := by
  rw [step_of_inputs hinputs] at h
  exact handle_effect h

/-- Settles O54: the cause of a cleared flag, for either unit. -/
theorem flagClearedOnlyByItsUnit : Obligations.FlagClearedOnlyByItsUnit := by
  intro s t e rest hinputs h
  have heffect := effect_of_step hinputs h
  constructor
  · intro hs ht
    obtain hreset | hbuild | hwrite := effect_clears (u := .tmm) heffect hs ht
    · exact .inl hreset
    · exact .inr (.inl hbuild)
    · exact .inr (.inr (parameterWrite_tmm hwrite))
  · intro hs ht
    obtain hreset | hbuild | hwrite := effect_clears (u := .rmsn) heffect hs ht
    · exact .inl hreset
    · exact .inr (.inl hbuild)
    · exact .inr (.inr (parameterWrite_rmsn hwrite))

/-- A step sets a flag only on the unit's BUILD that ends OK. -/
theorem step_sets (h : step s = .next t) (hs : s.valid u = false) (ht : t.valid u = true) :
    ∃ rest, s.inputs = commandEvent (encode u.build) :: rest ∧ t.status.code = .ok := by
  obtain ⟨-, rfl⟩ | ⟨e, rest, hinputs, heffect⟩ := step_cases h
  · simp [hs] at ht
  · obtain ⟨rfl, hcode⟩ := effect_sets heffect hs ht
    exact ⟨rest, hinputs, hcode⟩

/-- Settles O55, for either unit. -/
theorem flagSetOnlyByItsBuild : Obligations.FlagSetOnlyByItsBuild :=
  fun _ _ h => ⟨step_sets (u := .tmm) h, step_sets (u := .rmsn) h⟩

/-- A step after which a flag is 1 leaves the unit's parameters (R32). -/
theorem step_sameParameters (h : step s = .next t) (ht : t.valid u = true) : s.SameParameters t u := by
  obtain ⟨-, rfl⟩ | ⟨e, rest, -, heffect⟩ := step_cases h
  · exact sameParameters_refl _ u
  · exact effect_sameParameters (s := { s with inputs := rest }) heffect ht

/-- Settles O56: the parameters stay whenever the flag is 1 after the step, for either unit. -/
theorem layerImmutableWhileValid : Obligations.LayerImmutableWhileValid :=
  fun _ _ h => ⟨fun _ ht => step_sameParameters (u := .tmm) h ht, fun _ ht => step_sameParameters (u := .rmsn) h ht⟩

/-! ### The invariant (R31, R32, R37) -/

theorem writeReg32_memoryWf (h : s.MemoryWf) (r : Reg) (v : Word) : (s.writeReg32 r v).MemoryWf := by
  cases r <;> exact { h with }

theorem writeReg64_memoryWf (h : s.MemoryWf) (r : Reg) (v : DWord) : (s.writeReg64 r v).MemoryWf := by
  cases r <;> exact { h with }

theorem writeSpace_memoryWf (h : s.MemoryWf) {sp : Space} {k : Nat} (hk : k < s.sizes.ofSpace sp) (p : Pattern) :
    (s.writeSpace sp k p).MemoryWf := by
  cases sp with
  | wmem => exact { h with
      wmem_wf := mem_write_wf _ _ _ h.wmem_wf, wmem_within := mem_write_within _ _ _ hk h.wmem_within }
  | xmem => exact { h with
      xmem_wf := mem_write_wf _ _ _ h.xmem_wf, xmem_within := mem_write_within _ _ _ hk h.xmem_within }
  | ymem => exact { h with
      ymem_wf := mem_write_wf _ _ _ h.ymem_wf, ymem_within := mem_write_within _ _ _ hk h.ymem_within }
  | qmem => exact { h with
      qmem_wf := mem_write_wf _ _ _ h.qmem_wf, qmem_within := mem_write_within _ _ _ hk h.qmem_within }

theorem commandWrites_memoryWf (h : s.MemoryWf) (hwrites : s.CommandWrites t) : t.MemoryWf := by
  obtain ⟨vs, v, n, st, hlength, rfl⟩ := hwrites
  exact { h with
    ymem_wf := mem_writeFrom_wf vs _ 0 h.ymem_wf
    ymem_within := mem_writeFrom_within vs _ 0 (by simpa using hlength) h.ymem_within }

/-- Every event keeps the memories in form: writes stay inside the sizes, and a reset empties the memories. -/
theorem effect_memoryWf (heffect : Effect s e t) (h : s.MemoryWf) : t.MemoryWf := by
  cases heffect with
  | reset => constructor <;> simp [Mem.wf, Mem.within]
  | command w i _ _ hexec => exact commandWrites_memoryWf h (exec_commandWrites hexec)
  | illegalWord w _ _ => exact { h with }
  | writeReg32 r v _ _ => exact writeReg32_memoryWf h r v
  | writeReg64 r v _ => exact writeReg64_memoryWf h r v
  | readReg r => exact { h with }
  | writeSpace sp k p hk => exact writeSpace_memoryWf h hk _
  | readSpace sp k _ => exact { h with }

/-- Every event keeps the invariant. -/
theorem effect_inv (heffect : Effect s e t) (h : s.Inv) : t.Inv where
  sizes_wf := by rw [effect_sizes heffect]; exact h.sizes_wf
  memory := effect_memoryWf heffect h.memory
  bl := effect_layer (u := .tmm) heffect h.bl
  rn := effect_layer (u := .rmsn) heffect h.rn

/-- The invariant says nothing of the host's list of events. -/
theorem inv_inputs (h : s.Inv) (rest : List Event) : ({ s with inputs := rest } : State).Inv where
  sizes_wf := h.sizes_wf
  memory := { h.memory with }
  bl hvalid := { h.bl hvalid with }
  rn hvalid := { h.rn hvalid with }

/-- Settles O50, by cases on what the step did. -/
theorem stepKeepsInvariant : Obligations.StepKeepsInvariant := by
  intro s t h hstep
  obtain ⟨-, rfl⟩ | ⟨e, rest, -, heffect⟩ := step_cases hstep
  · exact h
  · exact effect_inv heffect (inv_inputs h rest)

end Sys2Proof.Machine
end

section
/-! PROOFS. The statements of spec/20_memory.md about the host port: the register transactions (R55, R56), the element
transactions (R57, R58, R66), what stops (R64), and that a host inside the map meets no stop. -/

namespace Sys2Proof.Machine

variable {s t : State} {r : Reg} {sp : Space} {e : Event} {i : Nat}

/-! ### What each transaction answers -/

theorem step_writeReg32 (s : State) (hcmd : r ≠ .cmd) (hwidth : r.width = 32) (v : Word) :
    step (s.given (.regWrite r.number ⟨32, v⟩)) = .next (s.writeReg32 r v) := by
  simp [step_given, transact, regWrite, hcmd, hwidth]

theorem step_writeReg64 (s : State) (hwidth : r.width = 64) (v : DWord) :
    step (s.given (.regWrite r.number ⟨64, v⟩)) = .next (s.writeReg64 r v) := by
  have hcmd : r ≠ .cmd := by
    rintro rfl
    cases hwidth
  simp [step_given, transact, regWrite, hcmd, hwidth]

theorem step_writeReg_wrongWidth (s : State) {p : Pattern} (h : p.width ≠ r.width) :
    step (s.given (.regWrite r.number p)) = .refused .wrongWidth := by
  simp [step_given, transact, regWrite, h]

theorem step_readReg (s : State) (r : Reg) :
    step (s.given (.regRead r.number)) = .next (s.deliver (s.readReg r)) := by
  simp [step_given, transact, regRead]

theorem step_writeSpace (h : i < s.sizes.ofSpace sp) (p : BitVec sp.width) :
    step (s.given (.memWrite sp.id i ⟨sp.width, p⟩)) = .next (s.writeSpace sp i ⟨sp.width, p⟩) := by
  simp [step_given, transact, memWrite, h.not_ge]

theorem step_writeSpace_outOfRange (h : s.sizes.ofSpace sp ≤ i) (p : Pattern) :
    step (s.given (.memWrite sp.id i p)) = .fault .indexOutOfRange := by
  simp [step_given, transact, memWrite, h]

theorem step_writeSpace_wrongWidth (h : i < s.sizes.ofSpace sp) {p : Pattern} (hwidth : p.width ≠ sp.width) :
    step (s.given (.memWrite sp.id i p)) = .refused .wrongWidth := by
  simp [step_given, transact, memWrite, h.not_ge, hwidth]

theorem step_readSpace (h : i < s.sizes.ofSpace sp) :
    step (s.given (.memRead sp.id i sp.width)) = .next (s.deliver (s.spaceAt sp i)) := by
  rw [step_given, transact, memRead_of_lt h]

theorem step_readSpace_outOfRange (h : s.sizes.ofSpace sp ≤ i) (w : Nat) :
    step (s.given (.memRead sp.id i w)) = .fault .indexOutOfRange := by
  simp [step_given, transact, memRead, h]

/-- The port stores a pattern of the element's width as it is: that element reads as it, every other stays. -/
theorem mem_read_store {w : Nat} (m : Mem w) (i : Nat) (v : BitVec w) :
    (m.write i (v.setWidth w)).read i = some v ∧ ∀ k, k ≠ i → (m.write i (v.setWidth w)).read k = m.read k := by
  rw [BitVec.setWidth_eq]
  exact ⟨mem_read_write_same m i v, fun _ hk => mem_read_write_other m v hk⟩

/-- An element reads as the pattern that was just stored in it. -/
@[simp] theorem spaceAt_writeSpace (s : State) (sp : Space) (i : Nat) (p : BitVec sp.width) :
    (s.writeSpace sp i ⟨sp.width, p⟩).spaceAt sp i = ⟨sp.width, p⟩ := by
  have stored {w : Nat} (m : Mem w) (v d : BitVec w) : ((m.write i (v.setWidth w)).read i).getD d = v := by
    rw [(mem_read_store m i v).1, Option.getD_some]
  cases sp <;> exact congrArg (Pattern.mk _) (stored _ p _)

/-! ### A host inside the map meets no stop (R64, R103) -/

/-- No command stops, on any state. -/
theorem exec_next (i : Instr) (s : State) : ∃ t, exec i s = .next t := by
  cases i with
  | nop | clamp8 => exact ⟨_, rfl⟩
  | blBuild => simp only [exec, execBlBuild]; split_ifs <;> exact ⟨_, rfl⟩
  | blFwd => simp only [exec, execBlFwd]; split_ifs <;> exact ⟨_, rfl⟩
  | rnBuild => simp only [exec, execRnBuild]; split_ifs <;> exact ⟨_, rfl⟩
  | rnFwd => simp only [exec, execRnFwd]; split_ifs <;> exact ⟨_, rfl⟩
  | isqrt => simp only [exec, execIsqrt]; split_ifs <;> exact ⟨_, rfl⟩

/-- A write of any word to CMD goes on, of an illegal one too. -/
theorem writeCmd_next (w : Word) (s : State) : ∃ t, writeCmd w s = .next t := by
  cases h : decode w with
  | ok i => rw [writeCmd_of_decode h]; exact exec_next i s
  | error x => exact ⟨s.raise .errBadCmd, by simp only [writeCmd, h]⟩

theorem step_writeReg_next (s : State) {v : Pattern} (h : v.width = r.width) :
    ∃ t, step (s.given (.regWrite r.number v)) = .next t := by
  by_cases hcmd : r = .cmd
  · subst hcmd
    obtain ⟨t, ht⟩ := writeCmd_next (v.bits.setWidth 32) s
    exact ⟨t, by rw [pattern_eq v h]; exact (handle_commandEvent _ s).trans ht⟩
  · obtain h32 | h64 := reg_width_cases r
    · rw [pattern_eq v (h.trans h32)]
      exact ⟨_, step_writeReg32 s hcmd h32 _⟩
    · rw [pattern_eq v (h.trans h64)]
      exact ⟨_, step_writeReg64 s h64 _⟩

/-- A transaction inside the map goes on: well-formedness names the register or the space and its width. -/
theorem step_given_next {x : Transaction} (h : x.wf s.sizes = true) : ∃ t, step (s.given x) = .next t := by
  cases x with
  | regWrite n v =>
    cases hr : Reg.ofNumber n with
    | none => simp [Transaction.wf, hr] at h
    | some r =>
      obtain rfl := eq_number_of_regOfNumber hr
      exact step_writeReg_next s (by simpa [Transaction.wf] using h)
  | regRead n =>
    obtain ⟨r, hr⟩ := Option.isSome_iff_exists.1 h
    obtain rfl := eq_number_of_regOfNumber hr
    exact ⟨_, step_readReg s r⟩
  | memWrite n i p =>
    cases hsp : Space.ofId n with
    | none => simp [Transaction.wf, hsp] at h
    | some sp =>
      obtain rfl := eq_id_of_spaceOfId hsp
      obtain ⟨hi, hwidth⟩ : i < s.sizes.ofSpace sp ∧ p.width = sp.width := by simpa [Transaction.wf] using h
      rw [pattern_eq p hwidth]
      exact ⟨_, step_writeSpace hi _⟩
  | memRead n i w =>
    cases hsp : Space.ofId n with
    | none => simp [Transaction.wf, hsp] at h
    | some sp =>
      obtain rfl := eq_id_of_spaceOfId hsp
      obtain ⟨hi, rfl⟩ : i < s.sizes.ofSpace sp ∧ w = sp.width := by simpa [Transaction.wf] using h
      exact ⟨_, step_readSpace hi⟩

theorem handle_next (h : e.wf s.sizes = true) : ∃ t, handle e s = .next t := by
  cases e with
  | reset => exact ⟨s.applyReset, rfl⟩
  | transaction x => exact step_given_next h

/-- No event changes what the host has still to say. -/
theorem effect_inputs (h : Effect s e t) : t.inputs = s.inputs := by
  cases h with
  | command w i _ _ hexec =>
    obtain ⟨vs, v, n, st, -, rfl⟩ := exec_commandWrites hexec
    rfl
  | writeReg32 r v _ _ => cases r <;> rfl
  | writeReg64 r v _ => cases r <;> rfl
  | writeSpace sp i p _ => cases sp <;> rfl
  | _ => rfl

/-- While the host stays inside the map a step goes on, and the host is inside the map again: what is left of its events
and the sizes they are measured by are the same. -/
theorem step_hostWf (h : s.HostWf) : ∃ t, step s = .next t ∧ t.HostWf := by
  cases hinputs : s.inputs with
  | nil => exact ⟨s, by simp only [step, advance, hinputs], h⟩
  | cons e rest =>
    rw [State.HostWf, hinputs] at h
    obtain ⟨he, hrest⟩ := List.forall_mem_cons.1 h
    obtain ⟨t, ht⟩ := handle_next (s := { s with inputs := rest }) he
    have heffect := handle_effect ht
    refine ⟨t, (step_of_inputs hinputs).trans ht, ?_⟩
    rw [State.HostWf, effect_inputs heffect, effect_sizes heffect]
    exact hrest

/-- What every step goes on from and keeps, every run goes on from and keeps. -/
theorem run_next_of_step {P : State → Prop} (hstep : ∀ s, P s → ∃ t, step s = .next t ∧ P t) (k : Nat) (hs : P s) :
    ∃ t, Host.Core.run Sys2Proof.core k s = .next t ∧ P t := by
  induction k generalizing s with
  | zero => exact ⟨s, core_run_zero s, hs⟩
  | succ k ih =>
    obtain ⟨u, hu, hPu⟩ := hstep s hs
    rw [core_run_succ k hu]
    exact ih hPu

/-- Settles O52, by induction on the number of steps. -/
theorem hostInsideTheMapNeverStops : Obligations.HostInsideTheMapNeverStops :=
  fun _ k h => run_next_of_step (fun _ => step_hostWf) k h

/-! ### The statements about the port -/

/-- Settles O47: both transactions are inside the map, or the write would have stopped. -/
theorem readAfterWrite : Obligations.ReadAfterWrite := by
  intro s t sp i p hwrite
  obtain hi | hi := Nat.lt_or_ge i (s.sizes.ofSpace sp)
  · rw [step_writeSpace hi] at hwrite
    cases hwrite
    rw [step_readSpace (by rwa [writeSpace_sizes]), spaceAt_writeSpace]
    rfl
  · rw [step_writeSpace_outOfRange hi] at hwrite
    cases hwrite

/-- Settles O41, register by register. -/
theorem registerWrites : Obligations.RegisterWrites := by
  intro s v d
  have write32 (r : Reg) (hcmd : r ≠ .cmd) (hwidth : r.width = 32) := step_writeReg32 s hcmd hwidth v
  have write64 (r : Reg) (hwidth : r.width = 64) := step_writeReg64 s hwidth d
  exact ⟨handle_commandEvent v s, write32 .status (by decide) rfl, write32 .wRows (by decide) rfl,
    write32 .wCols (by decide) rfl, write32 .shift (by decide) rfl, write32 .nDim (by decide) rfl, write64 .eps rfl,
    write32 .xRows (by decide) rfl, write32 .xCols (by decide) rfl, write64 .opa rfl, write64 .res rfl⟩

/-- Settles O42, register by register. -/
theorem registerReads : Obligations.RegisterReads := fun s =>
  ⟨step_readReg s .cmd, step_readReg s .status, step_readReg s .wRows, step_readReg s .wCols, step_readReg s .shift,
    step_readReg s .nDim, step_readReg s .eps, step_readReg s .xRows, step_readReg s .xCols, step_readReg s .opa,
    step_readReg s .res⟩

/-- Settles O44: each space by its store, the elements by the law of a memory write. -/
theorem elementWrites : Obligations.ElementWrites := by
  intro s i p q
  exact ⟨fun hi => ⟨_, step_writeSpace (sp := .wmem) hi p, mem_read_store _ i p⟩,
    fun hi => ⟨_, step_writeSpace (sp := .xmem) hi p, mem_read_store _ i p⟩,
    fun hi => ⟨_, step_writeSpace (sp := .ymem) hi p, mem_read_store _ i p⟩,
    fun hi => ⟨_, step_writeSpace (sp := .qmem) hi q, mem_read_store _ i q⟩⟩

/-- A MemRead inside the map returns what the element reads as. -/
theorem step_readSpace_of_spaceAt {p : Pattern} (hi : i < s.sizes.ofSpace sp) (h : s.spaceAt sp i = p) :
    step (s.given (.memRead sp.id i sp.width)) = .next { s with returned := s.returned ++ [p] } := by
  rw [step_readSpace hi, h]
  rfl

/-- Settles O45, space by space. -/
theorem elementReads : Obligations.ElementReads := fun _ _ _ _ =>
  ⟨fun hi h => step_readSpace_of_spaceAt (sp := .wmem) hi (by simp [State.spaceAt, State.wmemAt, h]),
    fun hi h => step_readSpace_of_spaceAt (sp := .xmem) hi (by simp [State.spaceAt, State.xmemAt, h]),
    fun hi h => step_readSpace_of_spaceAt (sp := .ymem) hi (by simp [State.spaceAt, State.ymemAt, h]),
    fun hi h => step_readSpace_of_spaceAt (sp := .qmem) hi (by simp [State.spaceAt, State.qmemAt, h])⟩

/-- Settles O48, stop by stop. -/
theorem outsideTheMapStops : Obligations.OutsideTheMapStops := by
  intro s n sp i w p space r
  refine ⟨fun hn => ?_, fun hsp => ?_, fun hi => ?_, step_writeReg_wrongWidth s,
    fun hi hwidth => step_writeSpace_wrongWidth hi hwidth⟩
  · have hnone := regOfNumber_eq_none hn
    simp [step_given, transact, regWrite, regRead, hnone]
  · have hnone := spaceOfId_eq_none hsp
    simp [step_given, transact, memWrite, memRead, hnone]
  · exact ⟨step_writeSpace_outOfRange hi p, step_readSpace_outOfRange hi w⟩

end Sys2Proof.Machine
end

section
/-! PROOFS. The statements of spec/20_memory.md about the footprints of the commands (R65): what no command writes, and
that the two forwards read their own footprint only. -/

namespace Sys2Proof.Machine

variable {s s' t : State}

/-! ### What no command writes -/

/-- Only the forwards store into YMEM. -/
theorem exec_ymem {i : Instr} (h : exec i s = .next t) (hbl : i ≠ .blFwd) (hrn : i ≠ .rnFwd) : t.ymem = s.ymem := by
  cases i with
  | nop | clamp8 => cases h; rfl
  | blBuild => obtain ⟨-, rfl⟩ | ⟨-, -, -, rfl⟩ | ⟨-, -, -, rfl⟩ := execBlBuild_cases h <;> rfl
  | blFwd => exact absurd rfl hbl
  | rnBuild => obtain ⟨-, rfl⟩ | ⟨-, -, -, rfl⟩ := execRnBuild_cases h <;> rfl
  | rnFwd => exact absurd rfl hrn
  | isqrt => obtain ⟨-, rfl⟩ | ⟨-, rfl⟩ := execIsqrt_cases h <;> rfl

/-- Settles O38: none of these is among what a command writes. -/
theorem commandsKeepInputs : Obligations.CommandsKeepInputs := by
  intro i s t h
  have hymem := exec_ymem h
  obtain ⟨vs, v, n, st, -, rfl⟩ := exec_commandWrites h
  exact ⟨rfl, rfl, rfl, rfl, rfl, rfl, rfl, rfl, rfl, rfl, rfl, rfl, rfl, rfl, rfl, hymem⟩

/-! ### The code of a forward -/

/-- The code that a forward ends with, by its tests in their order (60_exceptions R151): the unit's flag, the columns of
the activations against the layer's, the elements read and the elements written against the sizes. -/
def forwardCode (z : Config.Sizes) (valid : Bool) (cols features reads writes : Nat) : Code :=
  if valid = false then .errNoLayer
  else if cols ≠ features then .shapeMismatch
  else if reads > z.xmem ∨ writes > z.ymem then .errDim
  else .ok

theorem execBlFwd_code (h : execBlFwd s = .next t) :
    t.status.code = forwardCode s.sizes s.status.blValid s.xc s.c (s.b * s.c) (s.b * s.r) := by
  obtain ⟨hvalid, rfl⟩ | ⟨hvalid, hshape, rfl⟩ | ⟨hvalid, hshape, hdim, rfl⟩ | ⟨hvalid, hshape, hx, hy, rfl⟩ :=
    execBlFwd_cases h
  · simp [forwardCode, hvalid]
  · simp [forwardCode, hvalid, hshape]
  · simp [forwardCode, hvalid, hshape, hdim]
  · simp [forwardCode, hvalid, hshape, hx.not_gt, hy.not_gt, tmmDone]

theorem execRnFwd_code (h : execRnFwd s = .next t) :
    t.status.code = forwardCode s.sizes s.status.rnValid s.xc s.d (s.b * s.d) (s.b * s.d) := by
  obtain ⟨hvalid, rfl⟩ | ⟨hvalid, hshape, rfl⟩ | ⟨hvalid, hshape, hdim, rfl⟩ | ⟨hvalid, hshape, hx, hy, rfl⟩ :=
    execRnFwd_cases h
  · simp [forwardCode, hvalid]
  · simp [forwardCode, hvalid, hshape]
  · simp [forwardCode, hvalid, hshape, hdim]
  · simp [forwardCode, hvalid, hshape, hx.not_gt, hy.not_gt, rnDone]

/-- A BL.FWD that ends OK found the shape right and stored its grid. -/
theorem execBlFwd_of_ok (h : execBlFwd s = .next t) (hok : t.status.code = .ok) : s.xc = s.c ∧ t = tmmDone s := by
  obtain ⟨-, rfl⟩ | ⟨-, -, rfl⟩ | ⟨-, -, -, rfl⟩ | ⟨-, hshape, -, -, rfl⟩ := execBlFwd_cases h
  · cases hok
  · cases hok
  · cases hok
  · exact ⟨hshape, rfl⟩

/-- An RN.FWD that ends OK found the shape right and stored its grid. -/
theorem execRnFwd_of_ok (h : execRnFwd s = .next t) (hok : t.status.code = .ok) : s.xc = s.d ∧ t = rnDone s := by
  obtain ⟨-, rfl⟩ | ⟨-, -, rfl⟩ | ⟨-, -, -, rfl⟩ | ⟨-, hshape, -, -, rfl⟩ := execRnFwd_cases h
  · cases hok
  · cases hok
  · cases hok
  · exact ⟨hshape, rfl⟩

/-! ### The output of a forward -/

/-- Below the grid's size the stored output is the grid. -/
theorem tmmDone_ymem_read {k : Nat} (hk : k < s.b * s.r) : (tmmDone s).ymem.read k = s.tmmGrid[k]? := by
  simp [tmmDone, mem_read_writeFrom, hk]

theorem rnDone_ymem_read {k : Nat} (hk : k < s.b * s.d) : (rnDone s).ymem.read k = s.rnGrid[k]? := by
  simp [rnDone, mem_read_writeFrom, hk]

/-- A place in a grid is below the grid's size. -/
theorem gridIndex_lt {rows cols p q : Nat} (hp : p < rows) (hq : q < cols) : gridIndex cols p q < rows * cols :=
  calc
    p * cols + q < (p + 1) * cols := by rw [Nat.succ_mul]; omega
    _ ≤ rows * cols := Nat.mul_le_mul_right cols hp

/-- The weights are read at the first R*C elements of WMEM. -/
theorem weight_congr (hcols : s.c = s'.c) (hw : ∀ i, i < s.r * s.c → s.wmemAt i = s'.wmemAt i) {r c : Nat}
    (hr : r < s.r) (hc : c < s.c) : s.weight r c = s'.weight r c := by
  rw [State.weight, State.weight, ← hcols, hw _ (gridIndex_lt hr hc)]

/-- The activations are read at the first B*XC elements of XMEM. -/
theorem activation_congr (hcols : s.xc = s'.xc) (hx : ∀ i, i < s.b * s.xc → s.xmemAt i = s'.xmemAt i) {b c : Nat}
    (hb : b < s.b) (hc : c < s.xc) : s.activation b c = s'.activation b c := by
  rw [State.activation, State.activation, ← hcols, hx _ (gridIndex_lt hb hc)]

/-- An output of BL.FWD reads its weight row, its activation row, C and the shift. -/
theorem tmmOutput_congr {b b' r r' : Nat} (hcols : s.c = s'.c) (hshift : s.shift = s'.shift)
    (hw : ∀ c, c < s.c → s.weight r c = s'.weight r' c)
    (hx : ∀ c, c < s.c → s.activation b c = s'.activation b' c) : s.tmmOutput b r = s'.tmmOutput b' r' := by
  have hdot : s.dotProduct b r = s'.dotProduct b' r' := by
    rw [dotProduct_eq_sum, dotProduct_eq_sum, ← hcols]
    refine Finset.sum_congr rfl fun c hc => ?_
    rw [hw c (Finset.mem_range.1 hc), hx c (Finset.mem_range.1 hc)]
  rw [State.tmmOutput, State.tmmOutput, hdot, State.shiftAmount, State.shiftAmount, hshift]

/-- A grid of BL.FWD is fixed by its outputs. -/
theorem tmmGrid_congr (hrows : s.r = s'.r) (hbatch : s.b = s'.b)
    (hout : ∀ b r, b < s.b → r < s.r → s.tmmOutput b r = s'.tmmOutput b r) : s.tmmGrid = s'.tmmGrid := by
  rw [State.tmmGrid, State.tmmGrid, ← hbatch]
  refine List.flatMap_congr fun b hb => ?_
  rw [State.tmmRow, State.tmmRow, ← hrows]
  refine List.map_congr_left fun r hr => ?_
  rw [hout b r (List.mem_range.1 hb) (List.mem_range.1 hr)]

/-- Settles O19: the tests read sizes, flag and dimensions; each output reads its weight row and activation row. -/
theorem blFwdReadsOnlyFootprint : Obligations.BlFwdReadsOnlyFootprint := by
  intro s s' t t' h h' hsizes hvalid hwRows hwCols hshift hxRows hxCols hw hx
  have hr : s.r = s'.r := congrArg zext hwRows
  have hc : s.c = s'.c := congrArg zext hwCols
  have hb : s.b = s'.b := congrArg zext hxRows
  have hxc : s.xc = s'.xc := congrArg zext hxCols
  have hcode : t.status.code = t'.status.code := by
    rw [execBlFwd_code h, execBlFwd_code h', hsizes, hvalid, hr, hc, hb, hxc]
  refine ⟨hcode, fun hok k hk => ?_⟩
  obtain ⟨hshape, rfl⟩ := execBlFwd_of_ok h hok
  obtain ⟨-, rfl⟩ := execBlFwd_of_ok h' (hcode ▸ hok)
  rw [← hshape] at hx
  have hgrid : s.tmmGrid = s'.tmmGrid := tmmGrid_congr hr hb fun b r hlt hrlt =>
    tmmOutput_congr hc hshift (fun c hclt => weight_congr hc hw hrlt hclt)
      (fun c hclt => activation_congr hxc hx hlt (hshape ▸ hclt))
  rw [tmmDone_ymem_read hk, tmmDone_ymem_read (hr ▸ hb ▸ hk), hgrid]

/-- A non-negative epsilon leaves no radicand negative (41_rms_norm R126). -/
theorem rmsSqQ24_nonneg {eps : Int} (h : 0 ≤ eps) (x : List Int) : 0 ≤ rmsSqQ24 eps x := by
  have hmean : 0 ≤ meanSqQ24 x :=
    Int.tdiv_nonneg (mul_nonneg (sumSq_nonneg x) (by positivity)) (Int.natCast_nonneg _)
  have heps : 0 ≤ asr eps Config.epsShift := by
    rw [asr_eq_div]
    exact Int.ediv_nonneg h (by positivity)
  exact add_nonneg hmean heps

/-- A row whose radicand is not negative is stored as the row function gives it, without free values. -/
theorem rnStoredRow_of_nonneg {b : Nat} (h : 0 ≤ rmsSqQ24 s.epsilon (s.activationRow s.d b)) :
    ∃ y, s.rnOutput b = some y ∧ s.rnStoredRow b = y.map (enc 8) := by
  have hdefined : ∃ y, s.rnOutput b = some y := by
    simp only [State.rnOutput, rnRow, if_neg h.not_gt]
    split_ifs <;> exact ⟨_, rfl⟩
  obtain ⟨y, hy⟩ := hdefined
  exact ⟨y, hy, by simp only [State.rnStoredRow, hy]⟩

/-- An output row of RN.FWD reads its activation row, the D weights and epsilon. -/
theorem rnOutput_congr {b b' : Nat} (hdim : s.d = s'.d) (heps : s.eps = s'.eps)
    (hq : ∀ i, i < s.d → s.qmemAt i = s'.qmemAt i)
    (hx : ∀ i, i < s.d → s.activation b i = s'.activation b' i) : s.rnOutput b = s'.rnOutput b' := by
  have hweights : s.channelWeights = s'.channelWeights := by
    rw [State.channelWeights, State.channelWeights, ← hdim]
    refine List.map_congr_left fun i hi => ?_
    rw [State.channelWeight, State.channelWeight, hq i (List.mem_range.1 hi)]
  have hrow : s.activationRow s.d b = s'.activationRow s'.d b' := by
    rw [State.activationRow, State.activationRow, ← hdim]
    exact List.map_congr_left fun i hi => hx i (List.mem_range.1 hi)
  rw [State.rnOutput, State.rnOutput, hweights, hrow, State.epsilon, State.epsilon, heps]

/-- Rows with equal outputs are stored alike where the radicand is not negative. -/
theorem rnStoredRow_congr {b b' : Nat} (h : 0 ≤ rmsSqQ24 s.epsilon (s.activationRow s.d b))
    (hout : s.rnOutput b = s'.rnOutput b') : s.rnStoredRow b = s'.rnStoredRow b' := by
  obtain ⟨y, hy, hstored⟩ := rnStoredRow_of_nonneg h
  rw [hstored]
  simp only [State.rnStoredRow, ← hout, hy]

/-- Settles O30: the tests read sizes, flag and dimensions; with a non-negative epsilon every row is defined, and reads
its activation row, the weights and epsilon. -/
theorem rnFwdReadsOnlyFootprint : Obligations.RnFwdReadsOnlyFootprint := by
  intro s s' t t' h h' hsizes hvalid hnDim heps hxRows hxCols hq hx
  have hd : s.d = s'.d := congrArg zext hnDim
  have hb : s.b = s'.b := congrArg zext hxRows
  have hxc : s.xc = s'.xc := congrArg zext hxCols
  have hcode : t.status.code = t'.status.code := by
    rw [execRnFwd_code h, execRnFwd_code h', hsizes, hvalid, hd, hb, hxc]
  refine ⟨hcode, fun hok hnonneg k hk => ?_⟩
  obtain ⟨hshape, rfl⟩ := execRnFwd_of_ok h hok
  obtain ⟨-, rfl⟩ := execRnFwd_of_ok h' (hcode ▸ hok)
  rw [← hshape] at hx
  have hgrid : s.rnGrid = s'.rnGrid := by
    rw [State.rnGrid, State.rnGrid, ← hb]
    refine List.flatMap_congr fun b hlt => rnStoredRow_congr (rmsSqQ24_nonneg hnonneg _) ?_
    exact rnOutput_congr hd heps hq
      (fun i hi => activation_congr hxc hx (List.mem_range.1 hlt) (hshape ▸ hi))
  rw [rnDone_ymem_read hk, rnDone_ymem_read (hd ▸ hb ▸ hk), hgrid]

end Sys2Proof.Machine
end

section
/-! PROOFS. The statements of spec/30_encoding.md: the words of the commands (R77, R83), illegal words (R79), NOP (R78)
and the pseudo-instruction `ldgrid` (R85). -/

namespace Sys2Proof.Machine

/-! ### The words of the commands (R77, R79, R83) -/

/-- Every command's word has the fields of the command and decodes to it. -/
theorem roundTrip (i : Instr) : Laws.RoundTrip.Statement i := by
  cases i with
  | nop => exact Laws.RoundTrip.nop
  | blBuild => exact Laws.RoundTrip.blBuild
  | blFwd => exact Laws.RoundTrip.blFwd
  | rnBuild => exact Laws.RoundTrip.rnBuild
  | rnFwd => exact Laws.RoundTrip.rnFwd
  | isqrt => exact Laws.RoundTrip.isqrt
  | clamp8 => exact Laws.RoundTrip.clamp8

theorem decode_encode (i : Instr) : decode (encode i) = .ok i := by
  obtain ⟨-, hdecode, -⟩ := roundTrip i
  exact hdecode

/-- Settles O2: a decoded word is its two fields, which are those of the command. -/
theorem decodeAgreesWithEncode : Obligations.DecodeAgreesWithEncode :=
  fun _ i => ⟨eq_encode_of_decode, fun h => h ▸ decode_encode i⟩

/-- Settles O1: each word is the encoding of its command. -/
theorem commandWordsDecode : Obligations.CommandWordsDecode :=
  ⟨decode_encode .nop, decode_encode .blBuild, decode_encode .blFwd, decode_encode .rnBuild, decode_encode .rnFwd,
    decode_encode .isqrt, decode_encode .clamp8⟩

/-- A word that is no command's word only sets CODE. -/
theorem writeCmd_of_ne_encode {w : Word} (h : ∀ i, w ≠ encode i) (s : State) :
    writeCmd w s = .next (s.setCode .errBadCmd) := by
  cases hdecode : decode w with
  | ok i => exact absurd (eq_encode_of_decode hdecode) (h i)
  | error e => simp only [writeCmd, hdecode, raise_eq_setCode]

/-- Settles O3: the event leaves the host's list and the write of an illegal word sets CODE. -/
theorem illegalWordChangesOnlyCode : Obligations.IllegalWordChangesOnlyCode := by
  intro s w rest hinputs hillegal
  rw [step_of_inputs hinputs, handle_commandEvent, writeCmd_of_ne_encode hillegal]
  rfl

/-! ### NOP (R78) -/

/-- Settles O12: NOP ends well and does nothing else. -/
theorem nopClearsCode : Obligations.NopClearsCode :=
  execNop_eq

/-! ### The lines of a vector and of a grid (R85) -/

@[simp] theorem scriptWmFrom_length (sp : Space) (i : Nat) (vs : List Int) :
    (scriptWmFrom sp i vs).length = vs.length := by
  induction vs generalizing i with
  | nil => rfl
  | cons v vs ih => simp [scriptWmFrom, ih]

/-- Line `k` of a vector written from index `i` on writes element `k` at index `i + k`. -/
theorem scriptWmFrom_getElem? (sp : Space) (i k : Nat) (vs : List Int) :
    (scriptWmFrom sp i vs)[k]? = vs[k]?.map (scriptWm sp (i + k)) := by
  induction vs generalizing i k with
  | nil => rfl
  | cons v vs ih =>
    cases k with
    | zero => rfl
    | succ k => simp [scriptWmFrom, ih, Nat.add_right_comm, Nat.add_assoc]

@[simp] theorem scriptLdvec_length (sp : Space) (vs : List Int) : (scriptLdvec sp vs).length = vs.length :=
  scriptWmFrom_length sp 0 vs

theorem scriptLdvec_getElem? (sp : Space) (k : Nat) (vs : List Int) :
    (scriptLdvec sp vs)[k]? = vs[k]?.map (scriptWm sp k) := by
  rw [scriptLdvec, scriptWmFrom_getElem?, Nat.zero_add]

/-- A grid with a column count has rows of that length only (R81, R85). -/
theorem length_of_gridCols {g : List (List Int)} {q : Nat} (h : gridCols g = some q) {row : List Int}
    (hrow : row ∈ g) : row.length = q := by
  obtain ⟨hall, rfl⟩ : (∀ row ∈ g, row.length = (g.headD []).length) ∧ (g.headD []).length = q := by
    simpa [gridCols] using h
  exact hall row hrow

/-- The rows of a grid taken by their numbers, as the laws of the row-major layout take them. -/
theorem flatten_eq_flatMap_range (g : List (List Int)) :
    g.flatten = (List.range g.length).flatMap fun p => g.getD p [] := by
  have hrows : (List.range g.length).map (fun p => g.getD p []) = g :=
    List.ext_getElem (by simp) fun p _ hp => by simp [hp]
  rw [List.flatMap_def, hrows]

/-- Settles O49: the expansion writes the flattened grid as a vector, and the flattened grid is row-major. -/
theorem ldgridIsRowMajor : Obligations.LdgridIsRowMajor := by
  intro sp g q ts hcols hts
  obtain rfl : scriptLdvec sp g.flatten = ts := by simpa [scriptLdgrid, hcols] using hts
  have hlength : ∀ p, p < g.length → (g.getD p []).length = q := fun p hp =>
    length_of_gridCols hcols (by simp [hp])
  refine ⟨?_, fun p j row v hrow hv => ?_⟩
  · rw [scriptLdvec_length, flatten_eq_flatMap_range, grid_length _ q _ hlength]
  · obtain ⟨hp, -⟩ := List.getElem?_eq_some_iff.1 hrow
    obtain ⟨hj, -⟩ := List.getElem?_eq_some_iff.1 hv
    have hjq : j < q := length_of_gridCols hcols (List.mem_of_getElem? hrow) ▸ hj
    have hplace : g.flatten[p * q + j]? = some v := by
      rw [flatten_eq_flatMap_range, grid_getElem? _ q _ hlength hp hjq, List.getD_eq_getElem?_getD, hrow]
      exact hv
    rw [scriptLdvec_getElem?, hplace, Option.map_some]

end Sys2Proof.Machine
end

section
/-! PROOFS. The statements of spec/40_ternary_matmul.md: the saturation (R95, R100), what BL.BUILD admits (R97, R98),
the accumulator of an admitted layer (R96, R102) and BL.FWD (R91, R99, R104, R105). -/

namespace Sys2Proof.Machine

variable {s s' t : State}

/-! ### The saturation (R95) -/

theorem clampInt8_of_range {v : Int} (h : -128 ≤ v ∧ v ≤ 127) : clampInt8 v = v := by
  rw [clampInt8_eq, min_eq_right h.2, max_eq_right h.1]

theorem clampInt8_clampInt8 (v : Int) : clampInt8 (clampInt8 v) = clampInt8 v :=
  clampInt8_of_range (clampInt8_range v)

theorem clampInt8_mono {v v' : Int} (h : v ≤ v') : clampInt8 v ≤ clampInt8 v' := by
  rw [clampInt8_eq, clampInt8_eq]
  exact max_le_max_left _ (min_le_min_left _ h)

/-- Settles O8: a saturated value is in range, and a value in range is kept. -/
theorem clampSaturates : Obligations.ClampSaturates :=
  ⟨fun _ => rfl, clampInt8_clampInt8, fun _ _ => clampInt8_mono, clampInt8_of_range (by decide),
    clampInt8_of_range (by decide), clampInt8_of_range (by decide)⟩

/-! ### The saturator alone (R100) -/

/-- Settles O20: the saturation is the clamp of the library. -/
theorem clampEightSaturatesOperand : Obligations.ClampEightSaturatesOperand := by
  intro s
  rw [← clampInt8_eq]
  exact execClamp8_eq s

/-- A saturated value is stored in a 64-bit register without loss. -/
theorem sext_enc64_clampInt8 (v : Int) : sext (enc 64 (clampInt8 v)) = clampInt8 v := by
  obtain ⟨hlow, hhigh⟩ := clampInt8_range v
  exact BitVec.toInt_ofInt_eq_self (by decide) (by omega) (by omega)

theorem execClamp8_res (h : exec .clamp8 s = .next t) : t.res = enc 64 (clampInt8 s.operand) := by
  cases h
  rfl

/-- Settles O21: the operand of the second run is the saturated value, which the saturation keeps. -/
theorem clampEightIdempotent : Obligations.ClampEightIdempotent := by
  intro s t u h hagain
  have hoperand : ({ t with opa := t.res } : State).operand = clampInt8 s.operand :=
    calc
      sext t.res = sext (enc 64 (clampInt8 s.operand)) := by rw [execClamp8_res h]
      _ = clampInt8 s.operand := sext_enc64_clampInt8 _
  rw [execClamp8_res hagain, hoperand, clampInt8_clampInt8, execClamp8_res h]

/-! ### BL.BUILD (R97, R98) -/

/-- The layer that a valid flag stands for is what BL.BUILD tests (10_state R31). -/
theorem blLayer_iff : s.BlLayer ↔ s.c ≤ 16777215 ∧ s.r * s.c ≤ s.sizes.wmem ∧ s.weightsLegal = true := by
  rw [weightsLegal_iff]
  exact ⟨fun h => ⟨h.cols_le, h.fits, h.legal⟩, fun ⟨hcols, hfits, hlegal⟩ => ⟨hcols, hfits, hlegal⟩⟩

theorem execBlBuild_of_blLayer (h : s.BlLayer) : execBlBuild s = .next ((s.setBlValid true).setCode .ok) := by
  obtain ⟨hcols, hfits, hlegal⟩ := blLayer_iff.1 h
  simp [execBlBuild, hcols.not_gt, hfits.not_gt, hlegal]

theorem execBlBuild_of_too_large (h : 16777215 < s.c ∨ s.sizes.wmem < s.r * s.c) :
    execBlBuild s = .next ((s.setBlValid false).setCode .errDim) :=
  if_pos h

theorem execBlBuild_of_illegal_weight (hcols : s.c ≤ 16777215) (hfits : s.r * s.c ≤ s.sizes.wmem)
    (hillegal : s.weightsLegal = false) : execBlBuild s = .next ((s.setBlValid false).setCode .invalidWeight) := by
  simp [execBlBuild, hcols.not_gt, hfits.not_gt, hillegal]

/-- One illegal weight in the grid is enough for the test to fail. -/
theorem weightsLegal_eq_false {i : Nat} (hi : i < s.r * s.c) (hillegal : legalWeight (s.wmemAt i) = false) :
    s.weightsLegal = false :=
  Bool.eq_false_iff.2 fun h => Bool.eq_false_iff.1 hillegal ((weightsLegal_iff s).1 h i hi)

/-- Settles O13, outcome by outcome. -/
theorem blBuildValidates : Obligations.BlBuildValidates := by
  refine fun s => ⟨fun hcols hfits hlegal => ?_, fun hlarge => ?_, ?_⟩
  · exact execBlBuild_of_blLayer ⟨hcols, hfits, fun i hi => (legalWeight_iff _).2 (hlegal i hi)⟩
  · exact execBlBuild_of_too_large hlarge
  · rintro hcols hfits ⟨i, hi, hne⟩
    have hillegal : legalWeight (s.wmemAt i) = false := by
      rw [Bool.eq_false_iff, ne_eq, legalWeight_iff]
      tauto
    exact execBlBuild_of_illegal_weight hcols hfits (weightsLegal_eq_false hi hillegal)

/-! ### The accumulator of an admitted layer (R96, R102) -/

/-- Negating the least activation gives 128, the largest term there is (90_conflicts C2). -/
theorem abs_contribution_le {x : Int} (h : -128 ≤ x ∧ x ≤ 127) (w : Int) : |contribution w x| ≤ 128 := by
  unfold contribution
  split_ifs <;> rw [abs_le] <;> omega

/-- A sum of contributions over any columns of a row. -/
theorem abs_sum_contribution_le (s : State) (b r : Nat) (cols : Finset Nat) :
    |∑ c ∈ cols, contribution (s.weight r c) (s.activation b c)| ≤ 128 * cols.card :=
  calc
    |∑ c ∈ cols, contribution (s.weight r c) (s.activation b c)|
      ≤ ∑ c ∈ cols, |contribution (s.weight r c) (s.activation b c)| := Finset.abs_sum_le_sum_abs _ _
    _ ≤ cols.card • (128 : Int) := Finset.sum_le_card_nsmul _ _ _ fun _ _ => abs_contribution_le (sext8_range _) _
    _ = 128 * cols.card := by rw [nsmul_eq_mul, mul_comm]

/-- The columns of an admitted layer number at most MAX_C. -/
theorem card_cols_le (h : s.BlLayer) {cols : Finset Nat} (hcols : cols ⊆ Finset.range s.c) : cols.card ≤ 16777215 :=
  calc
    cols.card ≤ (Finset.range s.c).card := Finset.card_le_card hcols
    _ = s.c := Finset.card_range s.c
    _ ≤ 16777215 := h.cols_le

theorem abs_sum_contribution_le_of_blLayer (h : s.BlLayer) (b r : Nat) {cols : Finset Nat}
    (hcols : cols ⊆ Finset.range s.c) :
    |∑ c ∈ cols, contribution (s.weight r c) (s.activation b c)| ≤ 2147483520 := by
  have hsum := abs_sum_contribution_le s b r cols
  have hcard := card_cols_le h hcols
  omega

/-- Settles O16: each term is at most 128, and MAX_C terms of 128 stay below 2^31. -/
theorem accumulatorFitsInt32 : Obligations.AccumulatorFitsInt32 :=
  fun s hinv hvalid b r _ => ⟨fun _ hcols =>
    ⟨abs_sum_contribution_le s b r _, abs_sum_contribution_le_of_blLayer (hinv.bl hvalid) b r hcols⟩,
    dotProduct_eq_sum s b r⟩

/-- The accumulator of an admitted layer is below the magnitude that any shift by 31 or more empties. -/
theorem asr_dotProduct (h : s.BlLayer) (b r : Nat) {k : Nat} (hk : 31 ≤ k) :
    asr (s.dotProduct b r) k = if 0 ≤ s.dotProduct b r then 0 else -1 := by
  refine asr_of_abs_lt ?_
  rw [dotProduct_eq_sum]
  calc
    _ ≤ (2147483520 : Int) := abs_sum_contribution_le_of_blLayer h b r subset_rfl
    _ < 2 ^ 31 := by norm_num
    _ ≤ 2 ^ k := pow_le_pow_right₀ (by norm_num) hk

/-- Settles O17: from 31 on both shifts leave the sign of the accumulator; below 31 they are the same. -/
theorem shiftCountSaturatesAt31 : Obligations.ShiftCountSaturatesAt31 := by
  intro s hinv hvalid b r _
  have hlayer := hinv.bl hvalid
  refine ⟨?_, asr_dotProduct hlayer b r⟩
  obtain hlarge | hsmall := le_total 31 s.shiftAmount
  · rw [min_eq_right hlarge, asr_dotProduct hlayer b r hlarge, asr_dotProduct hlayer b r le_rfl]
  · rw [min_eq_left hsmall]

/-! ### BL.FWD (R91, R99, R104, R105) -/

theorem execBlFwd_of_no_layer (h : s.status.blValid = false) : execBlFwd s = .next (s.setCode .errNoLayer) :=
  if_pos h

theorem execBlFwd_of_shape_mismatch (hvalid : s.status.blValid = true) (hshape : s.xc ≠ s.c) :
    execBlFwd s = .next (s.setCode .shapeMismatch) := by
  simp [execBlFwd, hvalid, hshape]

theorem execBlFwd_of_too_large (hvalid : s.status.blValid = true) (hshape : s.xc = s.c)
    (h : s.sizes.xmem < s.b * s.c ∨ s.sizes.ymem < s.b * s.r) : execBlFwd s = .next (s.setCode .errDim) := by
  simp [execBlFwd, hvalid, hshape, h]

/-- Settles O14, failure by failure. -/
theorem blFwdFailsInOrder : Obligations.BlFwdFailsInOrder := fun _ =>
  ⟨execBlFwd_of_no_layer,
    fun hvalid hshape => execBlFwd_of_shape_mismatch hvalid fun h => hshape (BitVec.eq_of_toNat_eq h),
    fun hvalid hshape => execBlFwd_of_too_large hvalid (congrArg zext hshape)⟩

/-- The output as R91 writes it: the clamped floor of the sum of contributions over 2^s. -/
theorem tmmOutput_eq (s : State) (b r : Nat) :
    s.tmmOutput b r = max (-128) (min 127 (Int.fdiv
      (∑ c ∈ Finset.range s.c, contribution (s.weight r c) (s.activation b c)) (2 ^ s.shiftAmount))) := by
  rw [State.tmmOutput, clampInt8_eq, dotProduct_eq_sum, fdiv_two_pow]

/-- Output element (b, r) stands at its row-major place. -/
theorem tmmDone_ymem_read_gridIndex {b r : Nat} (hb : b < s.b) (hr : r < s.r) :
    (tmmDone s).ymem.read (gridIndex s.r b r) = some (enc 8 (s.tmmOutput b r)) := by
  rw [tmmDone_ymem_read (gridIndex_lt hb hr), gridIndex, tmmGrid_getElem? s hb hr]

/-- An output is stored in its element without loss. -/
theorem toInt_enc_tmmOutput (s : State) (b r : Nat) : (enc 8 (s.tmmOutput b r)).toInt = s.tmmOutput b r :=
  toInt_enc8 (clampInt8_range _)

/-- From the grid's size on the memory is as before. -/
theorem tmmDone_ymem_read_of_le {k : Nat} (hk : s.b * s.r ≤ k) : (tmmDone s).ymem.read k = s.ymem.read k := by
  simp [tmmDone, mem_read_writeFrom, hk]

/-- Settles O15: the stored memory is that of the successful forward, read at, and past, the places of the grid. -/
theorem blFwdMeetsContract : Obligations.BlFwdMeetsContract := by
  intro s hvalid hshape hx hy
  refine ⟨(tmmDone s).ymem, execBlFwd_of_fits hvalid (congrArg zext hshape) hx hy, fun b r hb hr => ?_,
    fun k hk => tmmDone_ymem_read_of_le hk⟩
  exact ⟨_, tmmDone_ymem_read_gridIndex hb hr, (toInt_enc_tmmOutput s b r).trans (tmmOutput_eq s b r)⟩

/-- Settles O18: each of the two elements is the stored output of its rows, and these are equal. -/
theorem blFwdElementsIndependent : Obligations.BlFwdElementsIndependent := by
  intro s s' t t' b b' r r' h h' hok hok' hb hb' hr hr' hcols hshift hw hx
  obtain ⟨-, rfl⟩ := execBlFwd_of_ok h hok
  obtain ⟨-, rfl⟩ := execBlFwd_of_ok h' hok'
  calc
    (tmmDone s).ymem.read (gridIndex s.r b r) = some (enc 8 (s.tmmOutput b r)) := tmmDone_ymem_read_gridIndex hb hr
    _ = some (enc 8 (s'.tmmOutput b' r')) := by rw [tmmOutput_congr hcols hshift hw hx]
    _ = (tmmDone s').ymem.read (gridIndex s'.r b' r') := (tmmDone_ymem_read_gridIndex hb' hr').symm

end Sys2Proof.Machine
end

section
/-! PROOFS. The statements of spec/41_rms_norm.md: the two shifts of step 5 (R129), the ranges of the intermediates
(R130), the bypass and all-zero rows (R120, R132, R133), RN.BUILD (R114) and RN.FWD (R113, R115, R125, R126, R128). They
rest on the square root that the Newton loop gives (42_integer_sqrt R136, R137). -/

namespace Sys2Proof.Machine

variable {s : State}

/-! ### The two shifts of step 5 (R129) -/

/-- A left shift is undone by as much of a right shift. -/
theorem asr_mul_two_pow (v : Int) (j k : Nat) : asr (v * 2 ^ j) (k + j) = asr v k := by
  rw [asr_eq_div, asr_eq_div, pow_add, Int.mul_ediv_mul_of_pos_left _ _ (by positivity)]

/-- Two floors in a row are one floor. -/
theorem asr_asr (v : Int) (j k : Nat) : asr (asr v j) k = asr v (j + k) :=
  (Int.shiftRight_add v j k).symm

theorem asr_mul_64 (w : Int) : asr (w * 64) 16 = asr w 10 :=
  asr_mul_two_pow w 6 10

/-- Settles O11: the scale of 64 is a left shift by 6, and shifts to the right add up. -/
theorem outputShiftsCompose : Obligations.OutputShiftsCompose :=
  ⟨asr_mul_64, fun a => (asr_mul_64 _).trans (asr_asr a 12 10)⟩

/-! ### The square root (42_integer_sqrt R136, R137) -/

/-- The mean of `x` and `n / x` is not below the root: `(2r - x) * x = r^2 - (r - x)^2`. -/
theorem sqrt_le_newtonStep (n : Nat) {x : Nat} (hx : 1 ≤ x) : Nat.sqrt n ≤ newtonStep n x := by
  have hquot : 2 * Nat.sqrt n - x ≤ n / x := by
    rw [Nat.le_div_iff_mul_le hx]
    obtain hlarge | hsmall := le_total (2 * Nat.sqrt n) x
    · simp [Nat.sub_eq_zero_of_le hlarge]
    · have hroot := Nat.sqrt_le n
      zify [hsmall] at hroot ⊢
      nlinarith [sq_nonneg ((Nat.sqrt n : Int) - x)]
  rw [newtonStep, Nat.le_div_iff_mul_le two_pos]
  omega

/-- Above the root the iterates fall. -/
theorem newtonStep_lt {n x : Nat} (h : Nat.sqrt n < x) : newtonStep n x < x := by
  have hquot : n / x < x := Nat.div_lt_of_lt_mul (Nat.sqrt_lt.1 h)
  rw [newtonStep]
  omega

/-- From any iterate not below the root, the loop ends at the root once its bound covers the distance. -/
theorem newtonLoop_eq_sqrt {n : Nat} (hn : 0 < n) {fuel x : Nat} (hx : Nat.sqrt n ≤ x)
    (hfuel : x ≤ Nat.sqrt n + fuel) : newtonLoop n fuel x = Nat.sqrt n := by
  have hroot : 0 < Nat.sqrt n := Nat.sqrt_pos.2 hn
  induction fuel generalizing x with
  | zero => exact le_antisymm hfuel hx
  | succ fuel ih =>
    have hstep := sqrt_le_newtonStep n (hroot.trans_le hx)
    simp only [newtonLoop]
    obtain heq | hlt := hx.eq_or_lt
    · rw [if_pos (heq ▸ hstep), heq]
    · have hfall := newtonStep_lt hlt
      rw [if_neg hfall.not_ge, ih hstep (by omega)]

theorem isqrt_eq_sqrt (n : Nat) : isqrt n = Nat.sqrt n := by
  unfold isqrt
  split
  · interval_cases n
    · exact Nat.sqrt_zero.symm
    · exact Nat.sqrt_one.symm
  · exact newtonLoop_eq_sqrt (by omega) (Nat.sqrt_le_self n) (Nat.le_add_left n _)

theorem isqrt_eq_zero_iff (n : Nat) : isqrt n = 0 ↔ n = 0 := by
  rw [isqrt_eq_sqrt, Nat.sqrt_eq_zero]

/-- The sum that the Newton loop forms (42_integer_sqrt R138). -/
theorem add_div_le_succ {n k : Nat} (hk : 1 ≤ k) (hkn : k ≤ n) : k + n / k ≤ n + 1 := by
  have hquot : 1 ≤ n / k := (Nat.one_le_div_iff hk).2 hkn
  have hmul : k * (n / k) ≤ n := Nat.mul_div_le n k
  nlinarith

/-! ### The row function (R125) -/

/-- The root of a row (R119). -/
def rowRoot (eps : Int) (x : List Int) : Nat := Nat.sqrt (rmsSqQ24 eps x).toNat

/-- The output of one channel: step 5, or 0 where the root is 0 (R120 to R124). -/
def rnElement (root : Nat) (wq v : Int) : Int := if root = 0 then 0 else rnChannel root wq v

/-- The row function on a row of non-negative radicand, by either path. -/
theorem rnRow_of_nonneg {wq x : List Int} {eps : Int} (hl : wq.length = x.length) (h : 0 ≤ rmsSqQ24 eps x) :
    rnRow wq eps x = some (List.zipWith (rnElement (rowRoot eps x)) wq x) := by
  simp only [rnRow, if_neg h.not_gt, isqrt_eq_sqrt]
  change (if rowRoot eps x = 0 then _ else some (List.zipWith (rnChannel (rowRoot eps x)) wq x)) = _
  by_cases hroot : rowRoot eps x = 0
  · rw [if_pos hroot, hroot]
    exact congrArg some (List.ext_getElem (by simp [hl]) fun i _ _ => by simp [rnElement])
  · have hchannel : rnElement (rowRoot eps x) = rnChannel (rowRoot eps x) := by
      funext w v
      exact if_neg hroot
    rw [if_neg hroot, hchannel]

theorem rnRow_isSome_iff (wq : List Int) (eps : Int) (x : List Int) :
    (rnRow wq eps x).isSome = true ↔ 0 ≤ rmsSqQ24 eps x := by
  simp only [rnRow]
  split_ifs with hneg <;> simp [not_lt.1, hneg]

theorem rnElement_range (root : Nat) (wq v : Int) : -128 ≤ rnElement root wq v ∧ rnElement root wq v ≤ 127 := by
  unfold rnElement
  split
  · decide
  · exact clampInt8_range _

theorem rnElement_zero (root : Nat) (wq : Int) : rnElement root wq 0 = 0 := by
  simp [rnElement, rnChannel, shl, tdiv, asr, clampInt8]

/-- Step 5 in the terms of the library. -/
theorem rnChannel_eq (root : Nat) (wq v : Int) :
    rnChannel root wq v =
      max (-128) (min 127 (Int.fdiv (Int.fdiv (Int.tdiv (v * 2 ^ 24) root * wq) (2 ^ 12) * 64) (2 ^ 16))) := by
  rw [fdiv_two_pow, fdiv_two_pow, ← clampInt8_eq]
  rfl

/-! ### The bypass (R120, R132, R133) -/

theorem meanSqQ24_eq_div (x : List Int) : meanSqQ24 x = sumSq x * 2 ^ 24 / x.length :=
  Int.tdiv_eq_ediv_of_nonneg (mul_nonneg (sumSq_nonneg x) (by positivity))

theorem meanSqQ24_nonneg (x : List Int) : 0 ≤ meanSqQ24 x := by
  rw [meanSqQ24_eq_div]
  exact Int.ediv_nonneg (mul_nonneg (sumSq_nonneg x) (by positivity)) (Int.natCast_nonneg _)

/-- The mean square is 0 for a row of zeros, and for a row of more than 2^24 elements with a single 1 or -1. -/
theorem meanSqQ24_eq_zero_iff {x : List Int} (hpos : 1 ≤ x.length) (hmax : x.length ≤ 33554431) :
    meanSqQ24 x = 0 ↔ sumSq x = 0 ∨ sumSq x = 1 ∧ 16777217 ≤ x.length := by
  have hsum := sumSq_nonneg x
  rw [meanSqQ24_eq_div, Int.ediv_eq_iff_of_pos (by omega)]
  omega

theorem asr_nonneg {v : Int} (h : 0 ≤ v) (k : Nat) : 0 ≤ asr v k := by
  rw [asr_eq_div]
  exact Int.ediv_nonneg h (by positivity)

theorem asr_eps_eq_zero_iff {eps : Int} (h : 0 ≤ eps) : asr eps 8 = 0 ↔ eps ≤ 255 := by
  rw [asr_eq_iff]
  omega

theorem isqrt_rmsSqQ24_eq_zero_iff {eps : Int} {x : List Int} (h : 0 ≤ rmsSqQ24 eps x) :
    isqrt (rmsSqQ24 eps x).toNat = 0 ↔ rmsSqQ24 eps x = 0 := by
  rw [isqrt_eq_zero_iff]
  omega

/-- Both terms of the radicand are non-negative, so it is 0 when both are. -/
theorem rmsSqQ24_eq_zero_iff {eps : Int} (heps : 0 ≤ eps) {x : List Int} (hpos : 1 ≤ x.length)
    (hmax : x.length ≤ 33554431) :
    rmsSqQ24 eps x = 0 ↔ eps ≤ 255 ∧ (sumSq x = 0 ∨ sumSq x = 1 ∧ 16777217 ≤ x.length) := by
  rw [← asr_eps_eq_zero_iff heps, ← meanSqQ24_eq_zero_iff hpos hmax, and_comm]
  exact add_eq_zero_iff_of_nonneg (meanSqQ24_nonneg x) (asr_nonneg heps 8)

/-- The bypass writes zeros, whatever the weights. -/
theorem rnRow_bypass (wq : List Int) {eps : Int} {x : List Int} (h : rmsSqQ24 eps x = 0) :
    rnRow wq eps x = some (List.replicate x.length 0) := by
  simp [rnRow, h, isqrt]

/-- Settles O27, part by part. -/
theorem bypassExactlyAtZeroRadicand : Obligations.BypassExactlyAtZeroRadicand := fun wq x _ hpos hmax heps =>
  ⟨isqrt_rmsSqQ24_eq_zero_iff (rmsSqQ24_nonneg heps x), rmsSqQ24_eq_zero_iff heps hpos hmax, rnRow_bypass wq⟩

/-- Settles O28: by either path a channel of activation 0 gives 0. -/
theorem allZeroRowGivesZeros : Obligations.AllZeroRowGivesZeros := by
  intro wq eps d heps hl
  rw [rnRow_of_nonneg (by simpa using hl) (rmsSqQ24_nonneg heps _)]
  congr 1
  exact List.ext_getElem (by simp [hl]) fun i _ _ => by simp [rnElement_zero]

/-! ### The ranges of the intermediates (R130) -/

theorem int8_sq_range {v : Int} (h : IsInt8 v) : 0 ≤ v * v ∧ v * v ≤ 2 ^ 14 := by
  obtain ⟨hlow, hhigh⟩ := h
  constructor <;> nlinarith

theorem sumSq_le {x : List Int} (h : ∀ v ∈ x, IsInt8 v) : sumSq x ≤ 2 ^ 14 * x.length := by
  have hterms : ∀ q ∈ x.map fun v => v * v, q ≤ 2 ^ 14 := by
    simp only [List.mem_map, forall_exists_index, and_imp, forall_apply_eq_imp_iff₂]
    exact fun v hv => (int8_sq_range (h v hv)).2
  rw [sumSq_eq_sum]
  simpa [mul_comm] using List.sum_le_card_nsmul _ _ hterms

theorem meanSqQ24_le {x : List Int} (hpos : 1 ≤ x.length) (h : ∀ v ∈ x, IsInt8 v) : meanSqQ24 x ≤ 2 ^ 38 := by
  have hsum := sumSq_le h
  rw [meanSqQ24_eq_div]
  exact Int.ediv_le_of_le_mul (by omega) (by omega)

/-- A shift divides the bound of a magnitude. -/
theorem abs_asr_le {v : Int} {j k : Nat} (h : |v| ≤ 2 ^ (j + k)) : |asr v k| ≤ 2 ^ j := by
  rw [pow_add, abs_le] at h
  rw [asr_eq_div, abs_le]
  exact ⟨Int.le_ediv_of_mul_le (by positivity) (by linarith), Int.ediv_le_of_le_mul (by positivity) h.2⟩

theorem asr_int64_range {eps : Int} (h : IsInt64 eps) : -2 ^ 55 ≤ asr eps 8 ∧ asr eps 8 ≤ 2 ^ 55 - 1 := by
  obtain ⟨hlow, hhigh⟩ := h
  rw [asr_eq_div]
  omega

/-- A division that rounds toward zero stays in every range around 0. -/
theorem tdiv_range {a lo hi : Int} (q : Nat) (hlo : lo ≤ 0) (hhi : 0 ≤ hi) (h : lo ≤ a ∧ a ≤ hi) :
    lo ≤ tdiv a q ∧ tdiv a q ≤ hi := by
  have hquot {c : Int} (hc : 0 ≤ c) : 0 ≤ tdiv c q ∧ tdiv c q ≤ c := by
    rw [tdiv, Int.tdiv_eq_ediv_of_nonneg hc]
    exact ⟨Int.ediv_nonneg hc (Int.natCast_nonneg q), Int.ediv_le_self _ hc⟩
  obtain hpos | hneg := le_total 0 a
  · have := hquot hpos
    omega
  · have := hquot (neg_nonneg.2 hneg)
    rw [tdiv, Int.neg_tdiv] at this
    rw [tdiv]
    omega

/-- The activation in Q24. -/
theorem shl_int8_range {v : Int} (h : IsInt8 v) : -2 ^ 31 ≤ shl v 24 ∧ shl v 24 ≤ 127 * 2 ^ 24 := by
  obtain ⟨hlow, hhigh⟩ := h
  rw [shl_eq_mul]
  omega

theorem normQ12_range {v : Int} (h : IsInt8 v) (root : Nat) :
    -2 ^ 31 ≤ tdiv (shl v 24) root ∧ tdiv (shl v 24) root ≤ 127 * 2 ^ 24 :=
  tdiv_range root (by norm_num) (by norm_num) (shl_int8_range h)

/-- The product of a normalised activation and a weight is extreme at the corners of their ranges. -/
theorem mul_weight_range {n wq : Int} (hn : -2 ^ 31 ≤ n ∧ n ≤ 127 * 2 ^ 24) (hw : IsInt32 wq) :
    -2 ^ 62 + 2 ^ 31 ≤ n * wq ∧ n * wq ≤ 2 ^ 62 := by
  obtain ⟨hnlow, hnhigh⟩ := hn
  obtain ⟨hwlow, hwhigh⟩ := hw
  have hll := mul_nonneg (sub_nonneg.2 hnlow) (sub_nonneg.2 hwlow)
  have hlh := mul_nonneg (sub_nonneg.2 hnlow) (sub_nonneg.2 hwhigh)
  have hhl := mul_nonneg (sub_nonneg.2 hnhigh) (sub_nonneg.2 hwlow)
  have hhh := mul_nonneg (sub_nonneg.2 hnhigh) (sub_nonneg.2 hwhigh)
  constructor <;> linarith

/-- Steps 5b and 5c on a product in its range. -/
theorem scaled_product_range {p : Int} (h : -2 ^ 62 + 2 ^ 31 ≤ p ∧ p ≤ 2 ^ 62) :
    |asr p 12| ≤ 2 ^ 50 ∧ |asr p 12 * 64| ≤ 2 ^ 56 ∧ |asr (asr p 12 * 64) 16| ≤ 2 ^ 40 := by
  have hproduct : |p| ≤ 2 ^ 62 := abs_le.2 ⟨by linarith, h.2⟩
  have hweighted : |asr p 12| ≤ 2 ^ 50 := abs_asr_le (j := 50) hproduct
  have hscaled : |asr p 12 * 64| ≤ 2 ^ 56 := by
    rw [abs_mul, abs_of_pos (by norm_num : (0 : Int) < 64)]
    linarith
  exact ⟨hweighted, hscaled, abs_asr_le (j := 40) hscaled⟩

/-- The radicand is below 2^56, so its root is below 2^28. -/
theorem isqrt_toNat_le {n : Int} (h : n ≤ 2 ^ 55 + 2 ^ 38 - 1) : isqrt n.toNat ≤ 2 ^ 28 - 1 := by
  rw [isqrt_eq_sqrt]
  exact Nat.le_of_lt_succ (Nat.sqrt_lt'.2 (by norm_num; omega))

/-- The sum of the Newton loop as R130 writes it. -/
theorem natCast_add_div_le {n : Int} {k : Nat} (hk : 1 ≤ k) (hkn : (k : Int) ≤ n) :
    (k : Int) + n / k ≤ n + 1 := by
  lift n to Nat using by omega
  exact_mod_cast add_div_le_succ hk (by exact_mod_cast hkn)

/-- Settles O26: each range follows from the ranges before it, in the order of the table. -/
theorem rmsIntermediatesFitInt64 : Obligations.RmsIntermediatesFitInt64 := by
  intro x eps hpos hmax hx heps _
  have hsum := sumSq_le hx
  have hmean := meanSqQ24_le hpos hx
  have hshift := asr_int64_range heps
  have hradicand : rmsSqQ24 eps x ≤ 2 ^ 55 + 2 ^ 38 - 1 := by
    change meanSqQ24 x + asr eps 8 ≤ _
    omega
  refine ⟨fun v hv => int8_sq_range (hx v hv), ⟨sumSq_nonneg x, hsum⟩, by rw [shl_eq_mul]; omega,
    ⟨meanSqQ24_nonneg x, hmean⟩, hshift, hradicand, isqrt_toNat_le hradicand, fun _ => natCast_add_div_le,
    fun _ v hv wq hwq => ?_⟩
  have hproduct := mul_weight_range (normQ12_range (hx v hv) (isqrt (rmsSqQ24 eps x).toNat)) hwq
  exact ⟨shl_int8_range (hx v hv), normQ12_range (hx v hv) _, hproduct, scaled_product_range hproduct⟩

/-! ### RN.BUILD (R114) -/

theorem execRnBuild_of_fits (hpos : 1 ≤ s.d) (hmax : s.d ≤ 33554431) (hfits : s.d ≤ s.sizes.qmem) :
    execRnBuild s = .next ((s.setRnValid true).setCode .ok) := by
  simp [execRnBuild, Nat.ne_of_gt hpos, hmax.not_gt, hfits.not_gt]

theorem execRnBuild_of_bad_dimension (h : s.d = 0 ∨ 33554431 < s.d ∨ s.sizes.qmem < s.d) :
    execRnBuild s = .next ((s.setRnValid false).setCode .errDim) :=
  if_pos h

/-- Settles O22: the two outcomes are the two branches of the one test. -/
theorem rnBuildChecksDimension : Obligations.RnBuildChecksDimension :=
  fun _ => ⟨execRnBuild_of_fits, execRnBuild_of_bad_dimension⟩

/-! ### RN.FWD (R113, R115, R125, R126, R128) -/

theorem execRnFwd_of_no_layer (h : s.status.rnValid = false) : execRnFwd s = .next (s.setCode .errNoLayer) :=
  if_pos h

theorem execRnFwd_of_shape_mismatch (hvalid : s.status.rnValid = true) (hshape : s.xc ≠ s.d) :
    execRnFwd s = .next (s.setCode .shapeMismatch) := by
  simp [execRnFwd, hvalid, hshape]

theorem execRnFwd_of_too_large (hvalid : s.status.rnValid = true) (hshape : s.xc = s.d)
    (h : s.sizes.xmem < s.b * s.d ∨ s.sizes.ymem < s.b * s.d) : execRnFwd s = .next (s.setCode .errDim) := by
  simp [execRnFwd, hvalid, hshape, h]

/-- Settles O23, failure by failure. -/
theorem rnFwdFailsInOrder : Obligations.RnFwdFailsInOrder := fun _ =>
  ⟨execRnFwd_of_no_layer,
    fun hvalid hshape => execRnFwd_of_shape_mismatch hvalid fun h => hshape (BitVec.eq_of_toNat_eq h),
    fun hvalid hshape => execRnFwd_of_too_large hvalid (congrArg zext hshape)⟩

/-- The fold of step 1 over a row of XMEM is the sum over its columns. -/
theorem sumSq_activationRow (s : State) (n b : Nat) :
    sumSq (s.activationRow n b) = ∑ i ∈ Finset.range n, s.activation b i * s.activation b i := by
  rw [sumSq, State.activationRow, List.foldl_map, foldl_add_range, zero_add]

/-- The radicand of the statements is the one that RN.FWD computes. -/
theorem radicand_eq (s : State) (b : Nat) : s.radicand b = rmsSqQ24 s.epsilon (s.activationRow s.d b) := by
  rw [rmsSqQ24, meanSqQ24, sumSq_activationRow, activationRow_length, State.radicand, fdiv_two_pow]
  rfl

theorem rnDefined_iff (s : State) : s.rnDefined = true ↔ ∀ b, b < s.b → 0 ≤ s.radicand b := by
  simp [State.rnDefined, State.rnOutput, rnRow_isSome_iff, radicand_eq]

theorem radicand_nonneg (h : 0 ≤ s.epsilon) (b : Nat) : 0 ≤ s.radicand b :=
  radicand_eq s b ▸ rmsSqQ24_nonneg h _

/-- Settles O25: the mean square and the shifted epsilon are both non-negative. -/
theorem nonNegativeEpsilonSuffices : Obligations.NonNegativeEpsilonSuffices := fun s h =>
  ⟨radicand_nonneg h, (rnDefined_iff s).2 fun b _ => radicand_nonneg h b⟩

/-- Output element (b, i) stands at its row-major place. -/
theorem rnDone_ymem_read_gridIndex {b i : Nat} (hb : b < s.b) (hi : i < s.d) :
    (rnDone s).ymem.read (gridIndex s.d b i) = (s.rnStoredRow b)[i]? := by
  rw [rnDone_ymem_read (gridIndex_lt hb hi), gridIndex, rnGrid_getElem? s hb hi]

/-- From the grid's size on the memory is as before. -/
theorem rnDone_ymem_read_of_le {k : Nat} (hk : s.b * s.d ≤ k) : (rnDone s).ymem.read k = s.ymem.read k := by
  simp [rnDone, mem_read_writeFrom, hk]

/-- Below the grid's size every element is written, in the undefined rows too (log 5). -/
theorem rnDone_ymem_read_isSome {k : Nat} (hk : k < s.b * s.d) : ∃ p, (rnDone s).ymem.read k = some p :=
  ⟨s.rnGrid[k]'(by simpa using hk), by rw [rnDone_ymem_read hk, List.getElem?_eq_getElem]⟩

/-- The element of a defined row, before it is stored. -/
def State.rnValue (s : State) (b i : Nat) : Int :=
  rnElement (Nat.sqrt (s.radicand b).toNat) (s.channelWeight i) (s.activation b i)

theorem rnOutput_of_nonneg {b : Nat} (h : 0 ≤ s.radicand b) :
    s.rnOutput b = some ((List.range s.d).map (s.rnValue b)) := by
  rw [radicand_eq] at h
  rw [State.rnOutput, rnRow_of_nonneg (by simp) h, rowRoot, ← radicand_eq, State.channelWeights, State.activationRow,
    List.zipWith_map, List.zipWith_self]
  rfl

theorem rnStoredRow_getElem? {b i : Nat} (h : 0 ≤ s.radicand b) (hi : i < s.d) :
    (s.rnStoredRow b)[i]? = some (enc 8 (s.rnValue b i)) := by
  simp [State.rnStoredRow, rnOutput_of_nonneg h, hi]

/-- An output is stored in its element without loss. -/
theorem toInt_enc_rnValue (s : State) (b i : Nat) : (enc 8 (s.rnValue b i)).toInt = s.rnValue b i :=
  toInt_enc8 (rnElement_range _ _ _)

/-- The output as R125 writes it. -/
theorem rnValue_eq (s : State) (b i : Nat) :
    s.rnValue b i = if Nat.sqrt (s.radicand b).toNat = 0 then 0 else
      max (-128) (min 127 (Int.fdiv (Int.fdiv
        (Int.tdiv (s.activation b i * 2 ^ 24) (Nat.sqrt (s.radicand b).toNat) * s.channelWeight i) (2 ^ 12) * 64)
        (2 ^ 16))) := by
  rw [State.rnValue, rnElement, rnChannel_eq]

/-- A successful RN.FWD whose rows are all defined draws no free value. -/
theorem rnDone_freeCount (h : ∀ b, b < s.b → 0 ≤ s.radicand b) : (rnDone s).freeCount = s.freeCount :=
  if_pos ((rnDefined_iff s).2 h)

/-- Settles O24: the stored memory is that of the successful forward, read at, and past, the places of the grid. -/
theorem rnFwdMeetsContract : Obligations.RnFwdMeetsContract := by
  intro s hvalid hshape _ hx hy
  refine ⟨(rnDone s).ymem, (rnDone s).freeCount, execRnFwd_of_fits hvalid (congrArg zext hshape) hx hy,
    fun b i hb hi hnonneg => ?_, fun _ => rnDone_ymem_read_isSome, fun _ => rnDone_ymem_read_of_le, rnDone_freeCount⟩
  exact ⟨_, (rnDone_ymem_read_gridIndex hb hi).trans (rnStoredRow_getElem? hnonneg hi),
    (toInt_enc_rnValue s b i).trans (rnValue_eq s b i)⟩

/-- Settles O29: each of the two elements is the stored output of its row, and the two rows are stored alike. -/
theorem rnFwdRowsIndependent : Obligations.RnFwdRowsIndependent := by
  intro s s' t t' b b' h h' hok hok' hb hb' hdim heps hq hx hnonneg i hi
  obtain ⟨-, rfl⟩ := execRnFwd_of_ok h hok
  obtain ⟨-, rfl⟩ := execRnFwd_of_ok h' hok'
  have hrow : s.rnStoredRow b = s'.rnStoredRow b' :=
    rnStoredRow_congr (radicand_eq s b ▸ hnonneg) (rnOutput_congr hdim heps hq hx)
  calc
    (rnDone s).ymem.read (gridIndex s.d b i) = (s.rnStoredRow b)[i]? := rnDone_ymem_read_gridIndex hb hi
    _ = (s'.rnStoredRow b')[i]? := by rw [hrow]
    _ = (rnDone s').ymem.read (gridIndex s'.d b' i) := (rnDone_ymem_read_gridIndex hb' (hdim ▸ hi)).symm

end Sys2Proof.Machine
end

section
/-! PROOFS. The statements of spec/42_integer_sqrt.md: the integer square root (R136), the Newton loop (R137, R138) and
the ISQRT command (R140). That the loop ends at the root stands with the row function (`newtonLoop_eq_sqrt`,
`isqrt_eq_sqrt`), which uses it. -/

namespace Sys2Proof.Machine

variable {s : State}

/-! ### The Newton loop (R137, R138) -/

/-- Settles O10: the mean of `x` and `n / x` is not below the root, above the root it falls, and the loop starts `n - s`
above the root. -/
theorem newtonLoopTerminates : Obligations.NewtonLoopTerminates := by
  intro n hn
  have hpos : 0 < n := by omega
  have hroot : 1 ≤ Nat.sqrt n := Nat.sqrt_pos.2 hpos
  exact ⟨fun _ => sqrt_le_newtonStep n, fun _ hx => ⟨Nat.sqrt_lt.1 hx, newtonStep_lt hx⟩, sqrt_le_newtonStep n hroot,
    fun _ => add_div_le_succ, fun _ hfuel => newtonLoop_eq_sqrt hpos (Nat.sqrt_le_self n) (by omega)⟩

/-! ### The integer square root (R136) -/

theorem isqrt_sq (k : Nat) : isqrt (k ^ 2) = k :=
  (isqrt_eq_sqrt _).trans (Nat.sqrt_eq' k)

/-- One below the square of `j + 1` is `j ^ 2 + 2 * j`, the last number whose root is `j`. -/
theorem isqrt_sq_sub_one {k : Nat} (hk : 1 ≤ k) : isqrt (k ^ 2 - 1) = k - 1 := by
  obtain ⟨j, rfl⟩ := Nat.exists_eq_add_of_le' hk
  have hsquare : (j + 1) ^ 2 - 1 = j ^ 2 + (j + j) := Nat.sub_eq_of_eq_add (by ring)
  rw [hsquare, isqrt_eq_sqrt, Nat.sqrt_add_eq' j le_rfl, Nat.add_sub_cancel]

theorem isqrt_mono {n m : Nat} (h : n ≤ m) : isqrt n ≤ isqrt m := by
  rw [isqrt_eq_sqrt, isqrt_eq_sqrt]
  exact Nat.sqrt_le_sqrt h

/-- Settles O9: the loop gives the library's root, whose floor property and values at and next to a square are known. -/
theorem isqrtIsFloorSqrt : Obligations.IsqrtIsFloorSqrt :=
  ⟨fun n => Nat.eq_sqrt'.1 (isqrt_eq_sqrt n), isqrt_sq, fun _ => isqrt_sq_sub_one, fun n => (isqrt_eq_zero_iff n).1,
    fun _ _ => isqrt_mono⟩

/-! ### ISQRT (R140) -/

/-- A register that reads as non-negative has the same value unsigned, in the lower half of the words. -/
theorem toInt_eq_toNat_of_nonneg {p : DWord} (h : 0 ≤ p.toInt) : p.toInt = p.toNat ∧ p.toNat < 2 ^ 63 := by
  have hmsb : p.msb = false := by simpa [BitVec.msb_eq_toInt] using h
  exact ⟨BitVec.toInt_eq_toNat_of_msb hmsb, BitVec.toNat_lt_of_msb_false hmsb⟩

theorem execIsqrt_of_nonneg (h : 0 ≤ s.operand) :
    execIsqrt s = .next (({ s with res := BitVec.ofNat 64 (Nat.sqrt s.opa.toNat) } : State).setCode .ok) := by
  have hoperand : s.operand.toNat = s.opa.toNat := by
    rw [State.operand, sext, (toInt_eq_toNat_of_nonneg h).1, Int.toNat_natCast]
  rw [execIsqrt, if_neg h.not_gt, isqrt_eq_sqrt, hoperand, enc, BitVec.ofInt_natCast, State.finish]

theorem execIsqrt_of_neg (h : s.operand < 0) :
    execIsqrt s = .next (({ s with
      res := Config.negativeSqrt s.freeCount s.opa, freeCount := s.freeCount + 1 } : State).setCode .ok) :=
  if_pos h

/-- The root of a 63-bit number: 3037000500 squared is above `2 ^ 63`. -/
theorem sqrt_le_of_lt_two_pow_63 {n : Nat} (h : n < 2 ^ 63) : Nat.sqrt n ≤ 3037000499 :=
  Nat.le_of_lt_succ (Nat.sqrt_lt.2 (by omega))

/-- Settles O31: the two clauses are the two branches of the command, the second with the free value of log 6. -/
theorem isqrtCommandResult : Obligations.IsqrtCommandResult := fun _ =>
  ⟨fun h => ⟨execIsqrt_of_nonneg h, sqrt_le_of_lt_two_pow_63 (toInt_eq_toNat_of_nonneg h).2⟩,
    fun h => ⟨_, _, execIsqrt_of_neg h⟩⟩

end Sys2Proof.Machine
end

section
/-! PROOFS. The statements of spec/60_exceptions.md: the codes each command can end with (R148), what a failure leaves
(R152, R153) and which commands write RES (R164). -/

namespace Sys2Proof.Machine

variable {s t : State} {u : LayerUnit} {i : Instr}

/-! ### The codes of the commands (R148) -/

theorem forwardCode_mem (z : Config.Sizes) (valid : Bool) (cols features reads writes : Nat) :
    forwardCode z valid cols features reads writes ∈ [Code.ok, .errNoLayer, .shapeMismatch, .errDim] := by
  unfold forwardCode
  split_ifs <;> simp

/-- Settles O33, command by command; the two forwards share their tests. -/
theorem codesOfEachCommand : Obligations.CodesOfEachCommand := by
  intro i s t h
  cases i with
  | nop | clamp8 => cases h; simp
  | blBuild => obtain ⟨-, rfl⟩ | ⟨-, -, -, rfl⟩ | ⟨-, -, -, rfl⟩ := execBlBuild_cases h <;> simp
  | blFwd => exact execBlFwd_code h ▸ forwardCode_mem ..
  | rnBuild => obtain ⟨-, rfl⟩ | ⟨-, -, -, rfl⟩ := execRnBuild_cases h <;> simp
  | rnFwd => exact execRnFwd_code h ▸ forwardCode_mem ..
  | isqrt => obtain ⟨-, rfl⟩ | ⟨-, rfl⟩ := execIsqrt_cases h <;> simp

/-! ### The state after a failure (R152) -/

/-- The state that a failing command leaves: the code is set and a BUILD has cleared its flag (R152). -/
def State.failed (s : State) (i : Instr) (k : Code) : State :=
  { s with status :=
    { code := k
      blValid := if i = .blBuild then false else s.status.blValid
      rnValid := if i = .rnBuild then false else s.status.rnValid } }

/-- Every failure of every command leaves the state of R152. -/
theorem exec_failed (h : exec i s = .next t) (hfail : t.status.code ≠ .ok) : t = s.failed i t.status.code := by
  cases i with
  | nop | clamp8 => cases h; exact absurd rfl hfail
  | blBuild =>
    obtain ⟨-, rfl⟩ | ⟨-, -, -, rfl⟩ | ⟨-, -, -, rfl⟩ := execBlBuild_cases h
    · rfl
    · rfl
    · exact absurd rfl hfail
  | blFwd =>
    obtain ⟨k, rfl⟩ | ⟨rfl, -⟩ := execBlFwd_next h
    · rfl
    · exact absurd rfl hfail
  | rnBuild =>
    obtain ⟨-, rfl⟩ | ⟨-, -, -, rfl⟩ := execRnBuild_cases h
    · rfl
    · exact absurd rfl hfail
  | rnFwd =>
    obtain ⟨k, rfl⟩ | ⟨rfl, -⟩ := execRnFwd_next h
    · rfl
    · exact absurd rfl hfail
  | isqrt => obtain ⟨-, rfl⟩ | ⟨-, rfl⟩ := execIsqrt_cases h <;> exact absurd rfl hfail

theorem encode_injective : Function.Injective encode := fun i j h =>
  Except.ok.inj ((decode_encode i).symm.trans (h ▸ decode_encode j))

/-- A word written to CMD as the host's next transaction (R27). -/
theorem step_given_command (w : Word) (s : State) : step (s.given (.regWrite 0x00 ⟨32, w⟩)) = writeCmd w s :=
  handle_commandEvent w s

/-- Settles O34: the word is that of a command, whose failure is known, or of none and sets CODE only. -/
theorem failureChangesOnlyCode : Obligations.FailureChangesOnlyCode := by
  intro w s t h hfail
  rw [step_given_command] at h
  by_cases hword : ∃ i, w = encode i
  · obtain ⟨i, rfl⟩ := hword
    rw [writeCmd_of_decode (decode_encode i)] at h
    simp only [encode_injective.eq_iff]
    exact exec_failed h hfail
  · have hne : ∀ i, w ≠ encode i := fun i hi => hword ⟨i, hi⟩
    rw [writeCmd_of_ne_encode hne] at h
    cases h
    simp only [if_neg (hne _)]
    rfl

/-! ### A failing BUILD (R153) -/

/-- A flag at 1 stands for its layer. -/
theorem inv_layer (h : s.Inv) (hvalid : s.valid u = true) : s.Layer u := by
  cases u with
  | tmm => exact h.bl hvalid
  | rmsn => exact h.rn hvalid

/-- A BUILD finds no fault in the parameters of a layer that exists. -/
theorem exec_build_of_layer (hlayer : s.Layer u) (h : exec u.build s = .next t) : t.status.code = .ok := by
  cases u with
  | tmm =>
    cases (execBlBuild_of_blLayer hlayer).symm.trans h
    rfl
  | rmsn =>
    cases (execRnBuild_of_fits hlayer.pos hlayer.le_max hlayer.fits).symm.trans h
    rfl

/-- Clearing a flag that is 0 changes nothing. -/
theorem failed_build_of_invalid (hvalid : s.valid u = false) (k : Code) : s.failed u.build k = s.setCode k := by
  cases u with
  | tmm => exact congrArg (fun b => (s.setBlValid b).setCode k) hvalid.symm
  | rmsn => exact congrArg (fun b => (s.setRnValid b).setCode k) hvalid.symm

/-- For either unit: with the flag at 1 the BUILD would have ended OK. -/
theorem failing_build (hinv : s.Inv) (h : exec u.build s = .next t) (hfail : t.status.code ≠ .ok) :
    s.valid u = false ∧ t = s.setCode t.status.code := by
  have hvalid : s.valid u = false :=
    Bool.eq_false_iff.2 fun hv => hfail (exec_build_of_layer (inv_layer hinv hv) h)
  exact ⟨hvalid, (exec_failed h hfail).trans (failed_build_of_invalid hvalid _)⟩

/-- Settles O35, unit by unit. -/
theorem failingBuildLeavesNoLayer : Obligations.FailingBuildLeavesNoLayer :=
  fun _ _ hinv => ⟨failing_build (u := .tmm) hinv, failing_build (u := .rmsn) hinv⟩

/-! ### The diagnostics (R164, 10_state R34) -/

/-- ISQRT and CLAMP8 end OK and leave everything but RES and the model's counter (log 7). -/
theorem exec_diagnostic (h : exec i s = .next t) (hi : i = .isqrt ∨ i = .clamp8) :
    t = { s with res := t.res, freeCount := t.freeCount, status := { s.status with code := .ok } } := by
  obtain rfl | rfl := hi
  · obtain ⟨-, rfl⟩ | ⟨-, rfl⟩ := execIsqrt_cases h <;> rfl
  · cases h
    rfl

/-- Only the diagnostics write RES. -/
theorem exec_res (h : exec i s = .next t) (hisqrt : i ≠ .isqrt) (hclamp : i ≠ .clamp8) : t.res = s.res := by
  cases i with
  | nop => cases h; rfl
  | blBuild => obtain ⟨-, rfl⟩ | ⟨-, -, -, rfl⟩ | ⟨-, -, -, rfl⟩ := execBlBuild_cases h <;> rfl
  | blFwd => obtain ⟨k, rfl⟩ | ⟨rfl, -⟩ := execBlFwd_next h <;> rfl
  | rnBuild => obtain ⟨-, rfl⟩ | ⟨-, -, -, rfl⟩ := execRnBuild_cases h <;> rfl
  | rnFwd => obtain ⟨k, rfl⟩ | ⟨rfl, -⟩ := execRnFwd_next h <;> rfl
  | isqrt => exact absurd rfl hisqrt
  | clamp8 => exact absurd rfl hclamp

/-- Settles O39: what the diagnostics write, and that no other command writes RES. -/
theorem onlyDiagnosticsWriteRes : Obligations.OnlyDiagnosticsWriteRes :=
  fun _ _ _ h => ⟨exec_diagnostic h, exec_res h⟩

end Sys2Proof.Machine
end

section
/-! PROOFS. The statements of spec/70_reset_and_hazards.md: every command ends (R180), the reset event (R168 to R170) and
the engine with nothing to come from the host (R169). -/

namespace Sys2Proof.Machine

variable {s : State}

/-! ### Every command ends (R180, 40_ternary_matmul R103) -/

/-- Settles O32, by the branches of each command's meaning (`exec_next`). -/
theorem everyCommandEnds : Obligations.EveryCommandEnds := exec_next

/-! ### The reset event (R168 to R170) -/

theorem step_of_reset {rest : List Event} (h : s.inputs = .reset :: rest) :
    step s = .next ({ s with inputs := rest } : State).applyReset := step_of_inputs h

theorem applyReset_statusWord (s : State) : s.applyReset.status.word = 0 := by
  rw [applyReset_status]
  decide

/-- No element of any memory is written after the reset event. -/
theorem applyReset_read (s : State) (i : Nat) :
    s.applyReset.wmem.read i = none ∧ s.applyReset.xmem.read i = none ∧ s.applyReset.ymem.read i = none ∧
      s.applyReset.qmem.read i = none := by simp

/-- Settles O58: the step answers `applyReset` of what is left, whose registers are 0 and whose memories are empty. -/
theorem resetEventGivesResetState : Obligations.ResetEventGivesResetState := fun _ _ h =>
  ⟨_, step_of_reset h, applyReset_statusWord _, rfl, rfl, rfl, rfl, rfl, rfl, rfl, rfl, rfl, applyReset_read _, rfl, rfl,
    rfl⟩

/-! ### Nothing to come from the host (R169, log 9) -/

/-- Settles O59: with an empty list of events `advance` takes its first branch. -/
theorem engineIdlesWithoutHost : Obligations.EngineIdlesWithoutHost := by
  intro s h
  simp only [step, advance, h]

end Sys2Proof.Machine
end
